-- ==== Sys2Proof/Word.lean ====
section
/-! DEFINITION. The words of the core: the 4-bit event word (30_encoding.md R70), the 16-bit payload (R81) and the
symbol (R82). Quantities whose width is an open parameter (ticks, milliseconds, duties, periods, bitmasks) are natural
numbers, bounded by the width the parameters give (log 7). -/

namespace Sys2Proof

/-- The event word `ev[3:0]` (R70). -/
abbrev EventWord := BitVec 4

/-- The 16-bit payload, and a command's base value (R28, R81). -/
abbrev Payload := BitVec 16

/-- One duty and period timing pair (R82). -/
structure Symbol where
  duty : Nat
  period : Nat
deriving DecidableEq, Repr, Inhabited

/-- One configuration pair `(debounceMillis, repeatMillis)` (R80). -/
structure CfgEntry where
  debMs : Nat
  repMs : Nat
deriving DecidableEq, Repr, Inhabited

end Sys2Proof
end

