-- ==== Sys2Proof/Config.lean ====
section
/-! DEFINITION. The parameters of an instantiation (00_scope.md R10, R11). The spec gives them no value: the model takes
them as one argument, a `Params`, and every statement is about every `Params` that meets R12 (WellFormed.lean). -/

namespace Sys2Proof

/-- The parameters of R11. The derived ones are functions below. -/
structure Params where
  /-- `N_MAX`: channels, trigger bits and commands. -/
  nMax : Nat
  /-- `TICK_W`: bits of a tick and of an interval. -/
  tickW : Nat
  /-- `TICK_MS`: milliseconds of a tick. -/
  tickMs : Nat
  /-- `MS_W`: bits of a configuration value. -/
  msW : Nat
  /-- `MAX_COUNTER`: largest value of a rolling counter. -/
  maxCounter : Nat
  /-- `CTR_W`: bits of the register that holds a rolling counter. -/
  ctrW : Nat
  /-- `BASE[j]`: the base value of command `j`. -/
  base : List Payload
  /-- `REPEAT_COUNT`: copies of the message in one stream. -/
  repeatCount : Nat
  /-- `DUTY_W`, `PERIOD_W`: bits of a duty and of a period. -/
  dutyW : Nat
  periodW : Nat
  /-- `BASE_UNIT`: the bit symbols are multiples of it. -/
  baseUnit : Nat
  /-- The four symbol pairs: start of frame, payload bit 0, payload bit 1, inter-frame gap. -/
  sof : Symbol
  zero : Symbol
  one : Symbol
  ifg : Symbol
deriving DecidableEq, Repr

/-- `PAYLOAD_W` (R10). -/
def payloadW : Nat := 16

/-- `SYMBOLS_PER_MESSAGE` (R10). -/
def symbolsPerMessage : Nat := 1 + payloadW + 1

/-- `STREAM_LEN = 18 * REPEAT_COUNT` (R11, R50). -/
def Params.streamLen (p : Params) : Nat := symbolsPerMessage * p.repeatCount

/-- `DUTY_MAX = 2^DUTY_W - 1` (R11, R130). -/
def Params.dutyMax (p : Params) : Nat := 2 ^ p.dutyW - 1

/-- `REFCFG` (R13): the spec's own instantiation for its test vectors. It is not the value set of the device; the model
uses it in `State.reset` and in tests only (DESIGN CHOICE, unsafe for a claim about `State.reset` alone, log 1). -/
def Params.refcfg : Params where
  nMax := 3
  tickW := 32
  tickMs := 10
  msW := 32
  maxCounter := 3
  ctrW := 8
  base := [0xA5C3#16, 0x0F00#16, 0xFFFE#16]
  repeatCount := 3
  dutyW := 16
  periodW := 16
  baseUnit := 50
  sof := ⟨150, 300⟩
  zero := ⟨50, 200⟩
  one := ⟨100, 250⟩
  ifg := ⟨200, 5000⟩

end Sys2Proof
end

