-- ==== Sys2Proof/Syntax.lean ====
section
/-! DEFINITION. The operations of the core, one constructor per row of spec/opcode_table.json, and the sample of the
input ports that one step takes (10_state.md R40). -/

namespace Sys2Proof

/-- The operations (00_scope.md R17, 30_encoding.md R71 to R75) with the operands each samples. -/
inductive Instr where
  /-- `NOP` (R72). -/
  | nop
  /-- `INIT`: the configuration list; `cfg_len` is its length (R80, R100). -/
  | init (cfg : List CfgEntry)
  /-- `BSVC`: the tick and the input vector (R104). -/
  | bsvc (now btn : Nat)
  /-- `TSVC`: a trigger bitmask (R145). -/
  | tsvc (trig : Nat)
  /-- `POLL`: the operands of BSVC (R160). -/
  | poll (now btn : Nat)
  /-- `DONE` (R155). -/
  | done
  /-- `RESET`, the pin `rst` (R73, R190). -/
  | reset
  /-- `ENC`, the micro-operation only TSVC issues (R74, R125). -/
  | enc (j : Nat)
  /-- The reserved codes 101, 110, 111 (R75). -/
  | reservedOp5
  | reservedOp6
  | reservedOp7
deriving DecidableEq, Repr

/-- What the environment presents at the input ports in one step (R40, R70, R86). All fields at their default is the
idle step: the event word 0x0 (R72). -/
structure Sample where
  /-- The reset pin (R73). -/
  rst : Bool := false
  /-- The event word (R70). -/
  ev : EventWord := 0#4
  /-- The port `now` (R105). -/
  now : Nat := 0
  /-- The port `btn` (R79). -/
  btn : Nat := 0
  /-- The port `trig_in` (R78). -/
  trigIn : Nat := 0
  /-- The ports `cfg_len`, `cfg_deb_ms`, `cfg_rep_ms` (R80). -/
  cfg : List CfgEntry := []
  /-- The environment resets the transmitter together with the core (R193); without `rst` it has no meaning. -/
  rstTx : Bool := false
  /-- The index the transmitter drives on the read port in this step, if it reads (R52). -/
  symIdx : Option Nat := none
deriving DecidableEq, Repr

end Sys2Proof
end

