-- ==== Sys2Proof/WellFormed.lean ====
section
/-! DEFINITION. What is well formed: parameters (00_scope.md R11, R12), operations with their operands (30_encoding.md R76 to
R80, R100, R125) and input samples. -/

namespace Sys2Proof

/-- The conversion of one millisecond value to ticks (R101) stands in Machine/Operands.lean; well-formedness needs only
its bound, stated here without division: the tick count of `ms` fits `TICK_W` bits (R102 d). -/
abbrev Params.msFits (p : Params) (ms : Nat) : Prop :=
  ms = 0 ∨ 2 * ms + p.tickMs < 2 ^ p.tickW * (2 * p.tickMs)

/-- A positive integer multiple of `BASE_UNIT` (R12). -/
abbrev Params.isMultiple (p : Params) (v : Nat) : Prop := 0 < v ∧ p.baseUnit ∣ v

/-- A symbol fits `DUTY_W` and `PERIOD_W` bits (R12). -/
abbrev Params.symbolFits (p : Params) (y : Symbol) : Prop := y.duty < 2 ^ p.dutyW ∧ y.period < 2 ^ p.periodW

/-- Widths and counts of R11 and R12. -/
abbrev Params.countsOk (p : Params) : Prop :=
  1 ≤ p.tickW ∧ 1 ≤ p.tickMs ∧ 1 ≤ p.msW ∧ 1 ≤ p.ctrW ∧ p.maxCounter < 2 ^ (p.ctrW - 1) ∧
  p.base.length = p.nMax ∧ 1 ≤ p.repeatCount ∧ 1 ≤ p.dutyW ∧ 1 ≤ p.periodW ∧ 1 ≤ p.baseUnit

/-- The constraints on the bit symbols that the source states (R12). -/
abbrev Params.bitSymbolsOk (p : Params) : Prop :=
  p.zero.duty < p.one.duty ∧ p.one.duty < p.one.period ∧ p.zero.duty < p.zero.period ∧
  p.isMultiple p.one.duty ∧ p.isMultiple p.one.period ∧ p.isMultiple p.zero.duty ∧ p.isMultiple p.zero.period

/-- Every symbol parameter fits its widths (R12). -/
abbrev Params.symbolsFit (p : Params) : Prop :=
  p.symbolFits p.sof ∧ p.symbolFits p.zero ∧ p.symbolFits p.one ∧ p.symbolFits p.ifg

/-- The constraints every instantiation meets (R12). -/
abbrev Params.wf (p : Params) : Prop := p.countsOk ∧ p.bitSymbolsOk ∧ p.symbolsFit

/-- A value of the millisecond port (R80). -/
abbrev CfgEntry.wf (p : Params) (e : CfgEntry) : Prop :=
  e.debMs < 2 ^ p.msW ∧ e.repMs < 2 ^ p.msW ∧ p.msFits e.debMs ∧ p.msFits e.repMs

/-- An operation whose operands are in the domain the spec gives it (R76). -/
def Instr.wf (p : Params) : Instr → Bool
  | .nop => true
  | .init cfg => decide (cfg.length ≤ p.nMax) && cfg.all fun e => decide (e.wf p)
  | .bsvc now btn => decide (now < 2 ^ p.tickW) && decide (btn < 2 ^ p.nMax)
  | .tsvc trig => decide (trig < 2 ^ p.nMax)
  | .poll now btn => decide (now < 2 ^ p.tickW) && decide (btn < 2 ^ p.nMax)
  | .done => true
  | .reset => true
  | .enc j => decide (j < p.nMax)
  | .reservedOp5 => true
  | .reservedOp6 => true
  | .reservedOp7 => true

/-- A sample whose values fit the widths of the ports (R40); what an INIT in it may hold is `Instr.wf`'s matter. -/
def Sample.wf (p : Params) (x : Sample) : Bool :=
  decide (x.now < 2 ^ p.tickW) && decide (x.btn < 2 ^ p.nMax) && decide (x.trigIn < 2 ^ p.nMax) &&
  x.cfg.all fun e => decide (e.debMs < 2 ^ p.msW) && decide (e.repMs < 2 ^ p.msW)

end Sys2Proof
end

