-- ==== Sys2Proof/Decode.lean ====
section
/-! DEFINITION. The decoder of the event port (30_encoding.md R70 to R75, R86), the encoder beside it, and the trace notation's
pseudo-operations (R88). -/

namespace Sys2Proof

/-- The field `op = ev[2:0]` (R70). -/
def EventWord.op (ev : EventWord) : BitVec 3 := ev.extractLsb' 0 3

/-- The field `d = ev[3]`, the `tx_done` strobe (R70). -/
def EventWord.d (ev : EventWord) : Bool := ev.getLsbD 3

/-- The operation the field `op` selects, with the operands it samples (R71, R75). -/
def decodeOp (x : Sample) : Instr :=
  match (EventWord.op x.ev).toNat with
  | 0 => .nop
  | 1 => .init x.cfg
  | 2 => .bsvc x.now x.btn
  | 3 => .tsvc x.trigIn
  | 4 => .poll x.now x.btn
  | 5 => .reservedOp5
  | 6 => .reservedOp6
  | _ => .reservedOp7

/-- The operations one step performs, in order (R86, R168): `rst` overrides the event word; else DONE where `d = 1`, then the
operation of `op`. The word 0x8 is DONE alone, its `op` 000 being "nothing". Every sample decodes: all sixteen event
words have a meaning. -/
def decode (x : Sample) : List Instr :=
  if x.rst then [.reset]
  else match EventWord.d x.ev, decodeOp x with
    | false, i => [i]
    | true, .nop => [.done]
    | true, i => [.done, i]

/-- Why a number read as an event word is rejected. -/
inductive DecodeError where
  /-- The event word has 4 bits (R70, R77): no word has a bit above bit 3. Raised by `eventWordOf`; safe, since no
  such word exists at the port. -/
  | notAnEventWord
deriving DecidableEq, Repr

/-- The event word a number stands for (R77: every event word is 4 bits, there is no other format). -/
def eventWordOf (w : Nat) : Except DecodeError EventWord :=
  if w < 16 then .ok (BitVec.ofNat 4 w) else .error .notAnEventWord

/-- The sample in which the event word stands and every operand port holds zero. -/
def sampleOfWord (ev : EventWord) : Sample := { ev := ev }

/-- The instruction the decoder reads from a table word: the operation of `op` where it is not 000, otherwise DONE where
`d = 1`, otherwise NOP. `nbits` is the table's width in whole bytes; the event word is the low 4 bits and the others are 0
(log 12 says what a word with `d = 1` and `op` not 000 answers). -/
def decodeTableWord (nbits w : Nat) : Option Instr :=
  if 2 ^ nbits ≤ w then none
  else match eventWordOf w with
    | .ok ev => (decode (sampleOfWord ev)).getLast?
    | .error _ => none

/-- The sample that requests one operation. ENC has none: "the environment cannot request it" (R74). -/
def encode : Instr → Option Sample
  | .nop => some { ev := 0x0#4 }
  | .init cfg => some { ev := 0x1#4, cfg := cfg }
  | .bsvc now btn => some { ev := 0x2#4, now := now, btn := btn }
  | .tsvc trig => some { ev := 0x3#4, trigIn := trig }
  | .poll now btn => some { ev := 0x4#4, now := now, btn := btn }
  | .done => some { ev := 0x8#4 }
  | .reset => some { rst := true }
  | .enc _ => none
  | .reservedOp5 => some { ev := 0x5#4 }
  | .reservedOp6 => some { ev := 0x6#4 }
  | .reservedOp7 => some { ev := 0x7#4 }

/-- The operations that have a code of the field `op` other than 000 (R71, R75). -/
def Instr.hasOp : Instr → Bool
  | .init _ => true
  | .bsvc _ _ => true
  | .tsvc _ => true
  | .poll _ _ => true
  | .reservedOp5 => true
  | .reservedOp6 => true
  | .reservedOp7 => true
  | .nop => false
  | .done => false
  | .reset => false
  | .enc _ => false

/-- The sample with the `tx_done` strobe set (R70). -/
def Sample.withDone (x : Sample) : Sample := { x with ev := x.ev ||| 0x8#4 }

/-- The sample that requests the operations of one step: one operation, or DONE and then one of `op` (R86). -/
def encodeStep : List Instr → Option Sample
  | [i] => encode i
  | [.done, i] => if i.hasOp then (encode i).map Sample.withDone else none
  | _ => none

/-- `match` and `mask` of an operation's row (R71, spec/opcode_table.json). RESET and ENC have none. -/
def Instr.row : Instr → Option (EventWord × EventWord)
  | .nop => some (0x0#4, 0x7#4)
  | .init _ => some (0x1#4, 0x7#4)
  | .bsvc _ _ => some (0x2#4, 0x7#4)
  | .tsvc _ => some (0x3#4, 0x7#4)
  | .poll _ _ => some (0x4#4, 0x7#4)
  | .done => some (0x8#4, 0x8#4)
  | .reset => none
  | .enc _ => none
  | .reservedOp5 => some (0x5#4, 0x7#4)
  | .reservedOp6 => some (0x6#4, 0x7#4)
  | .reservedOp7 => some (0x7#4, 0x7#4)

/-- `RUN a..b btn=<bits>`: one POLL per tick, `b - a + 1` steps, `now` modulo `2^TICK_W` (R88). -/
def traceRun (p : Params) (a b btn : Nat) : List Sample :=
  (List.range (b + 1 - a)).map fun n => { ev := 0x4#4, now := (a + n) % 2 ^ p.tickW, btn := btn }

/-- `HOLD i a..b`: RUN with only bit `i` of `btn` set (R88). -/
def traceHold (p : Params) (i a b : Nat) : List Sample := traceRun p a b (2 ^ i)

/-- `IDLE a..b`: RUN with `btn=0` (R88). -/
def traceIdle (p : Params) (a b : Nat) : List Sample := traceRun p a b 0

end Sys2Proof
end

