-- ==== Sys2Proof/Machine/State.lean ====
section
/-! DEFINITION. The state of the core (10_state.md R20 to R33, R41) as plain data, what can stop a step, and reset. -/

namespace Sys2Proof.Machine

/-- `ch[i].state` (R24). The encoding 0b11 has no constructor: it is unreachable and not representable (U9, D34). -/
inductive ChState where
  | idle
  | triggered
  | active
deriving DecidableEq, Repr

/-- `tx_state` (R31). -/
inductive TxState where
  | idle
  | busy
deriving DecidableEq, Repr

/-- The registers of one channel (R22 to R25); values are below `2^TICK_W`. -/
structure Channel where
  debounceInterval : Nat
  repeatInterval : Nat
  state : ChState
  last : Nat
deriving DecidableEq, Repr

/-- A channel's registers after reset (R190), and those of a channel INIT does not configure (R100). -/
def Channel.blank : Channel := ⟨0, 0, .idle, 0⟩

/-- The stream buffer (R33, R39): pairs of symbol index and symbol, indices strictly rising. An unlisted index holds no
value (R33, R52, U3; log 5). -/
abbrev Memory := List (Nat × Symbol)

/-- The canonical form: indices strictly rising. No entry can equal what an unlisted index reads as, since that is no
value. -/
abbrev Memory.wf (m : Memory) : Prop := m.Pairwise fun a b => a.1 < b.1

/-- The result ports after a step (R34, R40, R87): what the operation of the step returned. The MODEL's own record (DESIGN
CHOICE, safe, log 4): no rule of the core reads it, and a step begins by clearing it. -/
structure Outputs where
  /-- `trig_out`, valid for the step that produced it (R35). -/
  trigOut : Option Nat := none
  /-- The result `any_active` of BSVC and POLL (R104). -/
  anyActive : Option Bool := none
  /-- The result `busy` of TSVC and POLL (R145). -/
  busy : Option Bool := none
  /-- The result `active` of POLL (R160). -/
  active : Option Bool := none
  /-- The strobe `tx_start`, present in the step that starts a transmission, with the command (R40, R87). -/
  started : Option Nat := none
  /-- `(sym_duty, sym_period)` for the index the transmitter drove in this step (R52). -/
  sym : Option Symbol := none
deriving DecidableEq, Repr

/-- The state. -/
structure State where
  /-- The instantiation's parameters (R11): constants, no operation writes them (R38). The MODEL's own field (log 1). -/
  params : Params
  /-- `nch` (R21). -/
  nch : Nat
  /-- `ch[0..N_MAX-1]` (R22 to R25). -/
  ch : List Channel
  /-- `cmd[0..N_MAX-1].ctr` (R29). -/
  ctr : List Int
  /-- `tx_state` (R31). -/
  txState : TxState
  /-- `out_level` (R32). -/
  outLevel : Bool
  /-- `stream[0..STREAM_LEN-1]` (R33). -/
  stream : Memory
  /-- `tx_pending`, the transmitter's flag (R41). -/
  txPending : Bool
  /-- The result ports (R34, R40). -/
  out : Outputs
  /-- What the environment will present, oldest first; the MODEL's own field (log 3). -/
  inputs : List Sample
deriving DecidableEq, Repr

/-- The core raises no exception: "The set of synchronous exceptions of the core is empty" (60_exceptions.md R165). So there is no
constructor, and no step can end in a fault. Safe: it forbids nothing the spec has. -/
inductive Fault : Type
deriving DecidableEq, Repr

/-- Why the model stops at an input the spec gives no meaning (R16: "a model stops there by name"). -/
inductive Refusal where
  /-- Raised only by `exec` for an instruction without a meaning. Safe. -/
  | notModelled (mnemonic : String)
  /-- INIT with more pairs than `N_MAX` (R102 c, U2). Raised by INIT. Safe. -/
  | initTooManyChannels
  /-- INIT with an interval that does not fit `TICK_W` bits (R102 d, U2). Raised by INIT. Safe. -/
  | initIntervalTooWide
  /-- ENC with an index that is no command: its operand is `0 ≤ j < N_MAX` (R125). Raised by ENC; TSVC never issues
  it (R148). Safe. -/
  | noSuchCommand
  /-- A stream read at an index `k ≥ STREAM_LEN` (R52, U16). Raised by the read port. Safe. -/
  | streamIndexOutside
  /-- A stream read of an entry without a value (R33, R52, U3). Raised by the read port. Safe. -/
  | streamUnwritten
  /-- A reserved operation code (R75, U1). Raised by `systemStep` only. Safe. -/
  | reservedOp
  /-- DONE from a transmitter with no transmission pending (R41, R172, R199 b). Raised by `systemStep` only. Safe. -/
  | doneNotPending
  /-- A transmission started while the transmitter still plays one (R193, R199 c, U4). Raised by `systemStep` only. Safe. -/
  | startWhilePending
  /-- A stream read by a transmitter with no transmission pending (R58, R200, U4). Raised by `systemStep` only. Safe. -/
  | readNotLive
deriving DecidableEq, Repr

/-- The state after reset of an instantiation with parameters `p` (70_reset_and_hazards.md R190, R191), no sample presented yet. -/
def State.resetOf (p : Params) : State where
  params := p
  nch := 0
  ch := List.replicate p.nMax Channel.blank
  ctr := List.replicate p.nMax (-1)
  txState := .idle
  outLevel := false
  stream := []
  txPending := false
  out := {}
  inputs := []

/-- The machine right after reset. The spec leaves the parameters open; here they are `REFCFG` (R13; DESIGN CHOICE, unsafe,
log 1): a statement about every instantiation speaks of `State.resetOf p`. -/
def State.reset : State := State.resetOf Params.refcfg

end Sys2Proof.Machine
end

