-- ==== Sys2Proof/Machine/Operands.lean ====
section
/-! DEFINITION. Operand forms and the arithmetic notation of 00_scope.md R14, R15: values sampled at a port, modular tick
subtraction, millisecond conversion, bitmasks, counter and payload. -/

namespace Sys2Proof.Machine

/-- A value at the port `now`: a port of `TICK_W` wires carries `TICK_W` bits (R105; log 7). -/
def sampleTick (p : Params) (now : Nat) : Nat := now % 2 ^ p.tickW

/-- A value at a millisecond port: `MS_W` bits (R80; log 7). -/
def sampleMs (p : Params) (ms : Nat) : Nat := ms % 2 ^ p.msW

/-- `a -_W b = (a - b) mod 2^W` (R15). -/
def subMod (w a b : Nat) : Nat := (BitVec.ofNat w a - BitVec.ofNat w b).toNat

/-- `ms_to_ticks` (40_button_conditioning.md R101): nearest tick, an exact half up, at least 1 for a positive value. -/
def msToTicks (p : Params) (ms : Nat) : Nat :=
  if ms = 0 then 0 else max 1 ((2 * ms + p.tickMs) / (2 * p.tickMs))

/-- The interval of a sampled millisecond value, or nothing where it does not fit `TICK_W` bits (R102 d). -/
def intervalOf (p : Params) (ms : Nat) : Option Nat :=
  let t := msToTicks p (sampleMs p ms)
  if t < 2 ^ p.tickW then some t else none

/-- `lsb_index(m)` over the bits `0..n-1` (R15); nothing where they are all 0. -/
def lsbIndex (n m : Nat) : Option Nat := (List.range n).find? fun i => m.testBit i

/-- `low_mask(k)`: the `n`-bit value with bits `0..k` set (R15). -/
def lowMask (n k : Nat) : Nat := (2 ^ (k + 1) - 1) % 2 ^ n

/-- The bitmask whose bit `i` is the `i`-th of the list (R14, R78). -/
def maskOfBits : List Bool → Nat
  | [] => 0
  | b :: bs => b.toNat + 2 * maskOfBits bs

/-- Step 1 of ENC: "Increment `rollingCounter`; if it exceeds MAX_COUNTER or is negative (sentinel), wrap to 0" (R126). -/
def nextCounter (maxCounter : Nat) (old : Int) : Int :=
  let c1 := old + 1
  if c1 > maxCounter ∨ c1 < 0 then 0 else c1

/-- Step 2 of ENC: base value plus counter modulo `2^16` (R81, R127). -/
def payloadOf (base : Payload) (c : Int) : Payload := base + BitVec.ofNat 16 c.toNat

/-- `{duty, period}`, the symbol as one word, duty in the more significant bits (R82). -/
def symbolWord (p : Params) (y : Symbol) : BitVec (p.dutyW + p.periodW) :=
  BitVec.ofNat p.dutyW y.duty ++ BitVec.ofNat p.periodW y.period

end Sys2Proof.Machine
end

