-- ==== Sys2Proof/Machine/Flags.lean ====
section
/-! DEFINITION. The status outputs (10_state.md R34) and the register encodings (R24, R30, R31, R37). The core has no condition
codes. -/

namespace Sys2Proof.Machine

/-- `any_active` of a channel array of which the first `nch` are configured (R34, R115). -/
def anyActiveOf (nch : Nat) (chs : List Channel) : Bool := (chs.take nch).any fun c => c.state != .idle

/-- The status output `any_active` (R34). -/
def State.anyActive (s : State) : Bool := anyActiveOf s.nch s.ch

/-- The status output `busy` (R34). -/
def State.busy (s : State) : Bool := s.txState == .busy

/-- The status output `active` (R34, R163). -/
def State.active (s : State) : Bool := s.anyActive || s.busy

/-- The strobe `tx_start` of the last step (R40). -/
def State.txStart (s : State) : Bool := s.out.started.isSome

/-- The constant output `sym_len` (R52). -/
def State.symLen (s : State) : Nat := s.params.streamLen

/-- The 2-bit code of a channel state (R24, R37). -/
def ChState.code : ChState → BitVec 2
  | .idle => 0b00#2
  | .triggered => 0b01#2
  | .active => 0b10#2

/-- The 1-bit code of the sequencer state (R31, R37). -/
def TxState.code : TxState → BitVec 1
  | .idle => 0#1
  | .busy => 1#1

/-- The two's-complement register that holds a rolling counter (R30, R37). -/
def counterCode (p : Params) (c : Int) : BitVec p.ctrW := BitVec.ofInt p.ctrW c

end Sys2Proof.Machine
end

