-- ==== Sys2Proof/Machine/Ops.lean ====
section
/-! DEFINITION. The named operations over the stream buffer, the registers and the ports. -/

namespace Sys2Proof.Machine

/-- The value listed at an index of the buffer, if it holds one. -/
def streamGet (m : Memory) (k : Nat) : Option Symbol :=
  match m with
  | [] => none
  | (k', y) :: rest => if k = k' then some y else streamGet rest k

/-- `StreamWrite(k, d, p)`: both fields of the entry at once (20_memory.md R53). It keeps the canonical form. -/
def streamPut (m : Memory) (k : Nat) (y : Symbol) : Memory :=
  match m with
  | [] => [(k, y)]
  | (k', y') :: rest =>
    if k < k' then (k, y) :: (k', y') :: rest
    else if k = k' then (k, y) :: rest
    else (k', y') :: streamPut rest k y

/-- `StreamRead(k)` (R52): outside the buffer and for an entry without a value it is refused by name (U3, U16). A read
changes nothing. -/
def streamRead (s : State) (k : Nat) : Except Refusal Symbol :=
  if k < s.params.streamLen then
    match streamGet s.stream k with
    | some y => .ok y
    | none => .error .streamUnwritten
  else .error .streamIndexOutside

/-- Writes the channel registers (R24, R25). -/
def State.setChannels (chs : List Channel) (s : State) : State := { s with ch := chs }

/-- Writes `nch` and the channel registers (R21 to R25). -/
def State.setConfig (n : Nat) (chs : List Channel) (s : State) : State := { s with nch := n, ch := chs }

/-- Writes `cmd[j].ctr` (R29). -/
def State.setCounter (j : Nat) (c : Int) (s : State) : State := { s with ctr := s.ctr.set j c }

/-- Writes the stream buffer (R33). -/
def State.setStream (m : Memory) (s : State) : State := { s with stream := m }

/-- Writes `tx_state` (R31). -/
def State.setTxState (t : TxState) (s : State) : State := { s with txState := t }

/-- `SetOutputLevel` (R32). -/
def State.setOutLevel (b : Bool) (s : State) : State := { s with outLevel := b }

/-- `BeginTransmit()`: the strobe `tx_start` of this step, and the transmitter's `tx_pending` becomes true
(R41, 42_transmission_sequencer.md R145, R149). -/
def State.beginTransmit (j : Nat) (s : State) : State :=
  { s with txPending := true, out := { s.out with started := some j } }

/-- Writes the result ports. -/
def State.setOut (o : Outputs) (s : State) : State := { s with out := o }

/-- Taking the one asynchronous event of the core, the transmitter's completion (60_exceptions.md R167, R170): it saves nothing
and vectors nowhere. "Its whole effect is the two writes" of `tx_state` and `out_level`, one atomic group (R64, R155). There
is no return from it (R171). -/
def State.takeCompletion (s : State) : State := (s.setTxState .idle).setOutLevel false

/-- RESET (70_reset_and_hazards.md R190): every register of the core at its reset value, no result and no strobe. The buffer then holds
no value until the next ENC (R33; log 5). The transmitter's flag is not the core's and stays (R193; log 9). -/
def State.resetCore (s : State) : State :=
  { s with
    nch := 0
    ch := List.replicate s.params.nMax Channel.blank
    ctr := List.replicate s.params.nMax (-1)
    txState := .idle
    outLevel := false
    stream := []
    out := {} }

end Sys2Proof.Machine
end

