-- ==== Sys2Proof/Machine/Control.lean ====
section
/-! DEFINITION. NOP, RESET and the reserved codes (30_encoding.md R72 to R75, 70_reset_and_hazards.md R190). -/

namespace Sys2Proof.Machine

/-- What the hardware does with `op` 000 and with a reserved code: no state change and no result (R72, R75). -/
def noOperation (s : State) : State := s

/-- NOP (R72). -/
def execNop (s : State) : Host.Outcome State Fault Refusal := .next (noOperation s)

/-- RESET (R190). -/
def execReset (s : State) : Host.Outcome State Fault Refusal := .next s.resetCore

/-- The code 101: "The hardware treats them as NOP" (R75; log 8). -/
def execReservedOp5 (s : State) : Host.Outcome State Fault Refusal := .next (noOperation s)

/-- The code 110: "The hardware treats them as NOP" (R75; log 8). -/
def execReservedOp6 (s : State) : Host.Outcome State Fault Refusal := .next (noOperation s)

/-- The code 111: "The hardware treats them as NOP" (R75; log 8). -/
def execReservedOp7 (s : State) : Host.Outcome State Fault Refusal := .next (noOperation s)

end Sys2Proof.Machine
end

