-- ==== Sys2Proof/Machine/Conditioning.lean ====
section
/-! DEFINITION. The Button Conditioning Engine: INIT and BSVC (40_button_conditioning.md R100 to R122). -/

namespace Sys2Proof.Machine

/-- The registers INIT gives channel `i` (R100): the converted intervals of its pair, or blank where the list has none.
Nothing where an interval does not fit `TICK_W` bits (R102 d). -/
def channelOfCfg (p : Params) (e : CfgEntry) : Option Channel :=
  match intervalOf p e.debMs, intervalOf p e.repMs with
  | some d, some r => some ⟨d, r, .idle, 0⟩
  | _, _ => none

/-- The channels of a configuration list, in order; nothing where one does not convert. -/
def channelsOfCfg (p : Params) : List CfgEntry → Option (List Channel)
  | [] => some []
  | e :: rest =>
    match channelOfCfg p e, channelsOfCfg p rest with
    | some c, some cs => some (c :: cs)
    | _, _ => none

/-- INIT (R100 to R103). -/
def execInit (cfg : List CfgEntry) (s : State) : Host.Outcome State Fault Refusal :=
  if s.params.nMax < cfg.length then .refused .initTooManyChannels
  else
    match channelsOfCfg s.params cfg with
    | some cs => .next (s.setConfig cfg.length (cs ++ List.replicate (s.params.nMax - cfg.length) Channel.blank))
    | none => .refused .initIntervalTooWide

/-- Phase 1 of BSVC for one configured channel: its registers after the poll and its raw trigger bit (R104, R106 to R112,
R114). `now` is the sampled tick, `pressed` the channel's input. -/
def evalChannel (p : Params) (now : Nat) (pressed : Bool) (c : Channel) : Channel × Bool :=
  let elapsed := subMod p.tickW now c.last
  match c.state with
  | .idle =>
    if pressed then ({ c with state := .triggered, last := now }, false)
    else ({ c with last := now }, false)
  | .triggered =>
    if !pressed then ({ c with state := .idle, last := now }, false)
    else if c.debounceInterval ≤ elapsed then ({ c with state := .active, last := now }, true)
    else (c, false)
  | .active =>
    if !pressed then ({ c with state := .idle, last := now }, false)
    else if 0 < c.repeatInterval ∧ c.repeatInterval ≤ elapsed then ({ c with last := now }, true)
    else (c, false)

/-- Phase 1 of BSVC (R104): every configured channel once, the others not at all (R21). -/
def evalChannels (p : Params) (nch now btn : Nat) (chs : List Channel) : List (Channel × Bool) :=
  chs.mapIdx fun i c => if i < nch then evalChannel p now (btn.testBit i) c else (c, false)

/-- The channel registers after phase 1. -/
def bsvcChannels (p : Params) (nch now btn : Nat) (chs : List Channel) : List Channel :=
  (evalChannels p nch now btn chs).map Prod.fst

/-- `raw`: the trigger bits phase 1 emits (R104). -/
def bsvcRaw (p : Params) (nch now btn : Nat) (chs : List Channel) : Nat :=
  maskOfBits ((evalChannels p nch now btn chs).map Prod.snd)

/-- The least configured channel that is Active (R113). -/
def firstActive (nch : Nat) (chs : List Channel) : Option Nat :=
  (chs.take nch).findIdx? fun c => c.state == .active

/-- Priority suppression: the bits above the least Active channel are cleared (R113). -/
def suppress (p : Params) (raw : Nat) (k : Option Nat) : Nat :=
  match k with
  | some k => raw &&& lowMask p.nMax k
  | none => raw

/-- One poll of the engine: the state after it and `trig_out` (R104). Suppression reads the channels after phase 1 (R113). -/
def bsvc (now btn : Nat) (s : State) : State × Nat :=
  let tick := sampleTick s.params now
  let chs := bsvcChannels s.params s.nch tick btn s.ch
  let raw := bsvcRaw s.params s.nch tick btn s.ch
  (s.setChannels chs, suppress s.params raw (firstActive s.nch chs))

/-- BSVC (R104): the poll, with its results `trig_out` and `any_active` (R115). -/
def execBsvc (now btn : Nat) (s : State) : Host.Outcome State Fault Refusal :=
  let r := bsvc now btn s
  .next (r.1.setOut { r.1.out with trigOut := some r.2, anyActive := some r.1.anyActive })

end Sys2Proof.Machine
end

