-- ==== Sys2Proof/Machine/Encoder.lean ====
section
/-! DEFINITION. The Command Encoder: ENC (41_command_encoder.md R125 to R133). -/

namespace Sys2Proof.Machine

/-- The symbol of payload bit `i` (R83, R128). -/
def bitSymbol (p : Params) (pay : Payload) (i : Nat) : Symbol := if pay.getLsbD i then p.one else p.zero

/-- Step 3: one message, start of frame, sixteen bits most significant first, inter-frame gap (R84, R128). -/
def message (p : Params) (pay : Payload) : List Symbol :=
  p.sof :: (List.range 16).map (fun b => bitSymbol p pay (15 - b)) ++ [p.ifg]

/-- Writes a message's symbols at successive indices from `k` (R129). -/
def writeMessage (m : Memory) (k : Nat) : List Symbol → Memory
  | [] => m
  | y :: rest => writeMessage (streamPut m k y) (k + 1) rest

/-- Step 4: the copies `0..n-1` of the message (R129). -/
def writeCopies (m : Memory) (msg : List Symbol) (n : Nat) : Memory :=
  (List.range n).foldl (fun m r => writeMessage m (symbolsPerMessage * r) msg) m

/-- Step 5, the glitch-prevention adjustment of the copies `0..n-1` (R130). -/
def holdGaps (p : Params) (m : Memory) (n : Nat) : Memory :=
  (List.range n).foldl (fun m r => streamPut m (symbolsPerMessage * r + 17) ⟨p.dutyMax, p.ifg.period⟩) m

/-- Steps 3 to 5: the whole stream of a payload written over the buffer (R128 to R130). -/
def writeStream (p : Params) (pay : Payload) (m : Memory) : Memory :=
  holdGaps p (writeCopies m (message p pay) p.repeatCount) (p.repeatCount - 1)

/-- The base value of a command; every command has one where the parameters are well formed (R27, R28). -/
def baseOf (p : Params) (j : Nat) : Payload := p.base.getD j 0#16

/-- The rolling counter of a command; every command has one where the state is well formed (R27, R29). -/
def counterOf (s : State) (j : Nat) : Int := s.ctr.getD j (-1)

/-- `ENC(j)` (R125): the counter advances, and the stream of the payload it gives is written. -/
def encodeCommand (j : Nat) (s : State) : State :=
  let c := nextCounter s.params.maxCounter (counterOf s j)
  (s.setCounter j c).setStream (writeStream s.params (payloadOf (baseOf s.params j) c) s.stream)

/-- ENC (R125) with its operand `0 ≤ j < N_MAX`. -/
def execEnc (j : Nat) (s : State) : Host.Outcome State Fault Refusal :=
  if j < s.params.nMax then .next (encodeCommand j s) else .refused .noSuchCommand

end Sys2Proof.Machine
end

