-- ==== Sys2Proof/Machine/Sequencer.lean ====
section
/-! DEFINITION. The Transmission Sequencer and the poll: TSVC, DONE, POLL (42_transmission_sequencer.md R145 to R163). -/

namespace Sys2Proof.Machine

/-- The start arm: ENC, then the output level, the strobe and Busy, in one step (R149). -/
def startTransmission (j : Nat) (s : State) : State :=
  (((encodeCommand j s).setOutLevel true).beginTransmit j).setTxState .busy

/-- The three arms of TSVC (R146 to R149). -/
def tsvc (trig : Nat) (s : State) : State :=
  match s.txState with
  | .busy => s
  | .idle =>
    match lsbIndex s.params.nMax trig with
    | none => s
    | some j => startTransmission j s

/-- TSVC (R145): its result is `tx_state == Busy` after the operation (R150). -/
def execTsvc (trig : Nat) (s : State) : Host.Outcome State Fault Refusal :=
  let t := tsvc trig s
  .next (t.setOut { t.out with busy := some t.busy })

/-- POLL (R160): BSVC, then TSVC with the trigger result, in one step. -/
def execPoll (now btn : Nat) (s : State) : Host.Outcome State Fault Refusal :=
  let r := bsvc now btn s
  let t := tsvc r.2 r.1
  .next (t.setOut { t.out with
    trigOut := some r.2
    anyActive := some r.1.anyActive
    busy := some t.busy
    active := some (r.1.anyActive || t.busy) })

/-- DONE (R155): the completion event is taken. -/
def execDone (s : State) : Host.Outcome State Fault Refusal := .next s.takeCompletion

end Sys2Proof.Machine
end

