-- ==== Sys2Proof/Machine/Dispatch.lean ====
section
/-! DEFINITION. The meaning of each operation: one arm per constructor of Instr. -/

namespace Sys2Proof.Machine

def exec (i : Instr) (s : State) : Host.Outcome State Fault Refusal :=
  match i with
  | .nop => Sys2Proof.Machine.execNop s
  | .init cfg => Sys2Proof.Machine.execInit cfg s
  | .bsvc now btn => Sys2Proof.Machine.execBsvc now btn s
  | .tsvc trig => Sys2Proof.Machine.execTsvc trig s
  | .poll now btn => Sys2Proof.Machine.execPoll now btn s
  | .done => Sys2Proof.Machine.execDone s
  | .reset => Sys2Proof.Machine.execReset s
  | .enc j => Sys2Proof.Machine.execEnc j s
  | .reservedOp5 => Sys2Proof.Machine.execReservedOp5 s
  | .reservedOp6 => Sys2Proof.Machine.execReservedOp6 s
  | .reservedOp7 => Sys2Proof.Machine.execReservedOp7 s

end Sys2Proof.Machine
end

