-- ==== Sys2Proof/Machine/Port.lean ====
section
/-! DEFINITION. The ports: taking one input sample, the transmitter's read, and the operations of one step in order
(30_encoding.md R70, R73, R86, 60_exceptions.md R168). What step does stands here; Step.lean only calls it. -/

namespace Sys2Proof.Machine

/-- The sample the environment presents in this step; where none is left, the idle one (R72; log 3). -/
def nextSample (s : State) : Sample := s.inputs.headD {}

/-- The sample is taken from the environment's list. -/
def State.dropSample (s : State) : State := { s with inputs := s.inputs.tail }

/-- The start of a step: the results and the strobe of the step before are over, the transmitter clears `tx_pending` as it
delivers the completion event (R155) and where the environment resets it together with the core (R193; log 9). -/
def State.present (x : Sample) (s : State) : State :=
  { s with
    out := {}
    txPending := s.txPending && !EventWord.d x.ev && !(x.rst && x.rstTx) }

/-- The transmitter's read in this step, if it drives an index: it sees the buffer before the step's operations
(R52, R59, R61; log 10). It shows the kept entry also where U4 of 93_implementation_defined.md says any value: a read after
the completion, or of a stream that an early completion let another start overwrite (DESIGN CHOICE, unsafe, log 21). -/
def readPort (x : Sample) (s : State) : Except Refusal (Option Symbol) :=
  match x.symIdx with
  | none => .ok none
  | some k =>
    match streamRead s k with
    | .ok y => .ok (some y)
    | .error r => .error r

/-- Operations one after the other, each as a complete atomic operation (R168); the first that stops, stops the step. -/
def runOps : List Instr → State → Host.Outcome State Fault Refusal
  | [], s => .next s
  | i :: rest, s =>
    match exec i s with
    | .next t => runOps rest t
    | .fault f => .fault f
    | .refused r => .refused r

/-- One step on a given sample. -/
def sampleStep (x : Sample) (s : State) : Host.Outcome State Fault Refusal :=
  match readPort x s with
  | .error r => .refused r
  | .ok y =>
    match runOps (decode x) (s.present x) with
    | .next t => .next (t.setOut { t.out with sym := y })
    | .fault f => .fault f
    | .refused r => .refused r

/-- One step: the next sample is taken and its operations run. -/
def machineStep (s : State) : Host.Outcome State Fault Refusal := sampleStep (nextSample s) s.dropSample

/-- The state in which the environment presents a table word next, every operand port at zero. -/
def State.pushWord (s : State) (w : Nat) : State :=
  { s with inputs := sampleOfWord (BitVec.ofNat 4 w) :: s.inputs }

end Sys2Proof.Machine
end

