-- ==== Sys2Proof/Machine/Step.lean ====
section
/-! DEFINITION. The step of the machine, and where the host's word is placed for it. -/

namespace Sys2Proof.Machine

/-- One step of the core: the sample the environment presents is taken and its operations run (R86, R168). -/
def step (s : State) : Host.Outcome State Fault Refusal := machineStep s

/-- `s` with a table word as the event word of the next sample: the very next step runs it (log 3). The table gives the
event word 4 bits, so `nbits` adds nothing. -/
def State.withFetchWord (s : State) (_nbits w : Nat) : State := s.pushWord w

end Sys2Proof.Machine
end

