-- ==== Sys2Proof/Machine/Contract.lean ====
section
/-! DEFINITION. The environment's contract (60_exceptions.md R172, R177), as far as one step shows a breach of it, and the system-level step
that refuses a breach by name. `step` gives every sample the core's own effect; `systemStep` is `step` where the
environment keeps the contract, so that a claim about `systemStep` is about no run that contains a breach (R75, U1, U4). -/

namespace Sys2Proof.Machine

/-- The operation code of a sample is reserved and would be executed (R75). -/
def reservedRequested (x : Sample) : Bool := !x.rst && decide (5 ≤ (EventWord.op x.ev).toNat)

/-- What in the sample itself breaks the contract in this state: a reserved code (R75, R172), DONE from a transmitter that
has nothing pending (R41, R172, R199 b), a read by such a transmitter (R58, R200). Under `rst` the core ignores the event
word (R73), and the spec does not say whether it can then break the contract: a reserved code is no breach there, since it
is not executed, but a DONE or a read with nothing pending is one, since the duty is the transmitter's; so such a RESET step
is refused (DESIGN CHOICE, safe, log 18). -/
def sampleBreach (x : Sample) (s : State) : Option Refusal :=
  if reservedRequested x then some .reservedOp
  else if EventWord.d x.ev && !s.txPending then some .doneNotPending
  else if x.symIdx.isSome && !s.txPending then some .readNotLive
  else none

/-- The step started a transmission while the transmitter still played one (R193, R199 c, U4). -/
def startBreach (x : Sample) (s t : State) : Bool := t.txStart && (s.present x).txPending

/-- The system-level step. -/
def systemStep (s : State) : Host.Outcome State Fault Refusal :=
  match sampleBreach (nextSample s) s with
  | some r => .refused r
  | none =>
    match step s with
    | .next t => if startBreach (nextSample s) s t then .refused .startWhilePending else .next t
    | .fault f => .fault f
    | .refused r => .refused r

end Sys2Proof.Machine
end

