-- ==== Sys2Proof/Machine/Layout.lean ====
section
/-! DEFINITION. The byte layout 20_memory.md R54 decides for an implementation that places the buffer in byte-addressed
memory. A view of the state: no rule of the core depends on it. -/

namespace Sys2Proof.Machine

/-- `DB = ceil(DUTY_W/8)` and `PB = ceil(PERIOD_W/8)` (R54). -/
def dutyBytes (p : Params) : Nat := (p.dutyW + 7) / 8
def periodBytes (p : Params) : Nat := (p.periodW + 7) / 8

/-- `n` bytes of a value from address `a`, little-endian. -/
def littleEndian (a v : Nat) : Nat → List Host.Cell
  | 0 => []
  | n + 1 => (a, BitVec.ofNat 8 v) :: littleEndian (a + 1) (v / 256) n

/-- The bytes of entry `k`: offset `k * (DB + PB)`, duty at the lower offset (R54). -/
def entryBytes (p : Params) (k : Nat) (y : Symbol) : List Host.Cell :=
  let at0 := k * (dutyBytes p + periodBytes p)
  littleEndian at0 y.duty (dutyBytes p) ++ littleEndian (at0 + dutyBytes p) y.period (periodBytes p)

/-- The bytes of every entry that holds a value. -/
def byteLayout (p : Params) (m : Memory) : List Host.Cell := m.flatMap fun e => entryBytes p e.1 e.2

end Sys2Proof.Machine
end

