-- ==== Sys2Proof/Safety.lean ====
section
/-! DEFINITION. The terms the claims use: the closed form of a stream (41_command_encoder.md R131), the invariants of
10_state.md R43, quiescence (70_reset_and_hazards.md R205), and lists of polls. -/

namespace Sys2Proof.Machine

/-- Entry `k` of the stream of payload `pay`, in closed form (R131). -/
def streamSymbol (p : Params) (pay : Payload) (k : Nat) : Symbol :=
  if k % 18 = 0 then p.sof
  else if k % 18 ≤ 16 then (if pay.getLsbD (16 - k % 18) then p.one else p.zero)
  else if k / 18 + 1 < p.repeatCount then ⟨p.dutyMax, p.ifg.period⟩
  else p.ifg

/-- The complete stream of a payload as a buffer (R131): all `STREAM_LEN` entries, in index order. -/
def streamOf (p : Params) (pay : Payload) : Memory :=
  (List.range p.streamLen).map fun k => (k, streamSymbol p pay k)

/-- The invariants of R43 with the widths of R20, and the canonical form of the buffer. -/
structure State.Inv (s : State) : Prop where
  /-- The parameters meet R12. -/
  params_wf : s.params.wf
  /-- R43 item 1. -/
  nch_le : s.nch ≤ s.params.nMax
  /-- There are `N_MAX` channels and `N_MAX` commands (R20). -/
  ch_length : s.ch.length = s.params.nMax
  ctr_length : s.ctr.length = s.params.nMax
  /-- Intervals and ticks fit `TICK_W` bits (R22, R23, R25). -/
  ch_fit : ∀ c ∈ s.ch, c.debounceInterval < 2 ^ s.params.tickW ∧ c.repeatInterval < 2 ^ s.params.tickW ∧
    c.last < 2 ^ s.params.tickW
  /-- Channels `nch..N_MAX-1` hold their reset values (R21, R100). -/
  unconfigured : ∀ c ∈ s.ch.drop s.nch, c = Channel.blank
  /-- R43 item 3. -/
  ctr_range : ∀ c ∈ s.ctr, -1 ≤ c ∧ c ≤ s.params.maxCounter
  /-- R43 item 4. -/
  out_level : s.outLevel = (s.txState == .busy)
  /-- The buffer is in canonical form, inside `STREAM_LEN`, every symbol within its widths (R33, R53). -/
  stream_wf : Memory.wf s.stream
  stream_fit : ∀ e ∈ s.stream, e.1 < s.params.streamLen ∧ s.params.symbolFits e.2
  /-- R43 item 5: while Busy the buffer holds the complete stream of a command's last payload. -/
  live : s.txState = .busy → ∃ j, j < s.params.nMax ∧ 0 ≤ counterOf s j ∧
    s.stream = streamOf s.params (payloadOf (baseOf s.params j) (counterOf s j))
  /-- While Busy the transmitter's completion is still owed (R41). -/
  pending : s.txState = .busy → s.txPending = true

/-- No configured channel is pressed or held, and nothing is in flight (R205). -/
def State.quiescent (s : State) : Bool := !s.active && !s.txPending

/-- Every channel is Idle. -/
abbrev State.allIdle (s : State) : Prop := ∀ c ∈ s.ch, c.state = .idle

/-- Channel `k` is configured and Active, and no lower configured channel is (R113). -/
abbrev leastActive (nch : Nat) (chs : List Channel) (k : Nat) : Prop :=
  k < nch ∧ (chs[k]?).map Channel.state = some .active ∧ ∀ i < k, (chs[i]?).map Channel.state ≠ some .active

/-- A sample that requests a POLL. -/
def pollSample (now btn : Nat) : Sample := { ev := 0x4#4, now := now, btn := btn }

/-- The poll, counted from the poll that first sees the button, at which a held channel emits its raw trigger bit: at
`max(D, 1)`, and every `R` polls after that where `R > 0` (R119). -/
def firesAt (c : Channel) (n : Nat) : Bool :=
  decide (n = max c.debounceInterval 1 ∨
    0 < c.repeatInterval ∧ max c.debounceInterval 1 < n ∧ c.repeatInterval ∣ n - max c.debounceInterval 1)

/-- The next state of an outcome, if it is one. -/
def nextOf (o : Host.Outcome State Fault Refusal) : Option State :=
  match o with
  | .next t => some t
  | .fault _ => none
  | .refused _ => none

/-- The refusal of an outcome, if it is one. -/
def refusalOf (o : Host.Outcome State Fault Refusal) : Option Refusal :=
  match o with
  | .next _ => none
  | .fault _ => none
  | .refused r => some r

end Sys2Proof.Machine
end

