-- ==== Sys2Proof/Certificates/Slice0/Obligations.lean ====
section
/-! DEFINITION. The statements for the provers. Each docstring names the rules of spec/ it formalises; a clause that rests on a
choice of the model says so and names the log entry. -/

open Sys2Proof Sys2Proof.Machine

/-! ### Encoding -/

/-- The sixteen event words and the pin `rst`, each with the operations it stands for, in order (R70, R73, R86). -/
def Obligations.EventWordsDecodeAsTabulated : Prop :=
  ∀ x : Sample,
    (x.rst = true → decode x = [.reset]) ∧
    (x.rst = false →
      (x.ev = 0x0#4 → decode x = [.nop]) ∧
      (x.ev = 0x1#4 → decode x = [.init x.cfg]) ∧
      (x.ev = 0x2#4 → decode x = [.bsvc x.now x.btn]) ∧
      (x.ev = 0x3#4 → decode x = [.tsvc x.trigIn]) ∧
      (x.ev = 0x4#4 → decode x = [.poll x.now x.btn]) ∧
      (x.ev = 0x5#4 → decode x = [.reservedOp5]) ∧
      (x.ev = 0x6#4 → decode x = [.reservedOp6]) ∧
      (x.ev = 0x7#4 → decode x = [.reservedOp7]) ∧
      (x.ev = 0x8#4 → decode x = [.done]) ∧
      (x.ev = 0x9#4 → decode x = [.done, .init x.cfg]) ∧
      (x.ev = 0xA#4 → decode x = [.done, .bsvc x.now x.btn]) ∧
      (x.ev = 0xB#4 → decode x = [.done, .tsvc x.trigIn]) ∧
      (x.ev = 0xC#4 → decode x = [.done, .poll x.now x.btn]) ∧
      (x.ev = 0xD#4 → decode x = [.done, .reservedOp5]) ∧
      (x.ev = 0xE#4 → decode x = [.done, .reservedOp6]) ∧
      (x.ev = 0xF#4 → decode x = [.done, .reservedOp7]))

/-- Decode and encode agree: every well-formed operation but ENC has a sample that fits the ports and decodes to it alone;
ENC has none (R74); every operation of the field `op` has one that decodes to DONE and then it (R70); and every sample's
operations encode again to its event word. -/
def Obligations.DecodeAndEncodeAgree : Prop :=
  ∀ p : Params,
    (∀ i : Instr, i.wf p = true → (∀ j, i ≠ .enc j) →
      ∃ x, encode i = some x ∧ x.wf p = true ∧ decode x = [i]) ∧
    (∀ j, encode (.enc j) = none) ∧
    (∀ i : Instr, i.wf p = true → i.hasOp = true →
      ∃ x, encodeStep [.done, i] = some x ∧ x.wf p = true ∧ decode x = [.done, i]) ∧
    (∀ x : Sample, ∃ y, encodeStep (decode x) = some y ∧ decode y = decode x ∧ y.rst = x.rst ∧
      (x.rst = false → y.ev = x.ev))

/-- RUN expands to one POLL per tick, `b - a + 1` of them, `now` modulo `2^TICK_W`; HOLD is RUN with only bit `i` of `btn`,
IDLE is RUN with none (R88). -/
def Obligations.RunExpandsToPolls : Prop :=
  (∀ (p : Params) (a b btn : Nat), a ≤ b →
    (traceRun p a b btn).length = b - a + 1 ∧
    ∀ n, n < b - a + 1 → ∃ x, (traceRun p a b btn)[n]? = some x ∧
      decode x = [.poll ((a + n) % 2 ^ p.tickW) btn]) ∧
  (∀ (p : Params) (i a b : Nat), traceHold p i a b = traceRun p a b (2 ^ i)) ∧
  ∀ (p : Params) (a b : Nat), traceIdle p a b = traceRun p a b 0

/-! ### The step -/

/-- A step runs the operations its sample decodes to: one of them, or DONE and then one (R86, R168). Around them it takes the sample off
the environment's list, clears the results of the step before, clears `tx_pending` where the transmitter delivers
completion or is reset, and puts the symbol the transmitter read on its port (log 3, 4, 9, 10). That a refused operation
refuses the whole step, behind DONE with the DONE not done, is the model's choice (log 14). -/
def Obligations.StepRunsTheDecodedOperations : Prop :=
  ∀ (s : State) (x : Sample) (y : Option Symbol), nextSample s = x → readPort x s = .ok y →
    let s0 : State := { s with
      inputs := s.inputs.tail
      out := {}
      txPending := s.txPending && !x.ev.getLsbD 3 && !(x.rst && x.rstTx) }
    let s1 : State := { s0 with txState := .idle, outLevel := false }
    (∀ i, decode x = [i] →
      (∀ t, exec i s0 = .next t → step s = .next { t with out := { t.out with sym := y } }) ∧
      (∀ r, exec i s0 = .refused r → step s = .refused r)) ∧
    (∀ i, decode x = [.done, i] →
      (∀ t, exec i s1 = .next t → step s = .next { t with out := { t.out with sym := y } }) ∧
      (∀ r, exec i s1 = .refused r → step s = .refused r)) ∧
    ((∃ i, decode x = [i]) ∨ ∃ i, decode x = [.done, i])

/-- The pin `rst` selects RESET whatever the event word of the step says (R73): the core's registers after the step do not
depend on it. Two clauses are the model's choice: the stream buffer of `State.resetOf` holds no value (log 5, unsafe; the spec
leaves the content unspecified, R190), and the transmitter's `tx_pending` depends on bit 3 and on `rstTx` under `rst`
(log 9, unsafe). -/
def Obligations.ResetPinOverridesEventWord : Prop :=
  ∀ (s : State) (x : Sample), nextSample s = x → x.rst = true → x.symIdx = none →
    ∃ t : State, step s = .next t ∧ t = { State.resetOf s.params with
      txPending := s.txPending && !x.ev.getLsbD 3 && !x.rstTx
      inputs := s.inputs.tail }

/-- DONE and an operation in one word: DONE is performed first, so a poll or a TSVC that coincides with the completion may
start the next transmission in the same step (R168). -/
def Obligations.CompletionComesBeforeTheOperation : Prop :=
  ∀ (s : State) (x : Sample) (j : Nat), nextSample s = x → x.rst = false → x.symIdx = none → x.ev = 0xB#4 →
    j < s.params.nMax → x.trigIn.testBit j = true → (∀ i < j, x.trigIn.testBit i = false) →
    ∃ t : State, step s = .next t ∧ t.out.started = some j ∧ t.txState = .busy ∧ t.outLevel = true ∧
      t.ctr = s.ctr.set j (nextCounter s.params.maxCounter (s.ctr.getD j (-1)))

/-- The transmitter's read (R52): at an index outside the buffer and at an entry without a value it is refused by name;
elsewhere a step that goes on shows the entry. Three points are the model's choice: that a refused read refuses the whole
step, whatever operations it carries (log 14); that the entry is the one before the step's operations (log 10); and that a
read outside a transmission, or in one started early, shows the kept entry, where U4 says any value (log 21, unsafe). -/
def Obligations.StreamReadPortShowsTheEntry : Prop :=
  ∀ (s : State) (k : Nat), (nextSample s).symIdx = some k →
    (s.params.streamLen ≤ k → step s = .refused .streamIndexOutside) ∧
    (k < s.params.streamLen → streamGet s.stream k = none → step s = .refused .streamUnwritten) ∧
    (∀ y t, k < s.params.streamLen → streamGet s.stream k = some y → step s = .next t → t.out.sym = some y)

/-! ### NOP, reserved codes, RESET -/

/-- NOP changes no state and produces no result; a step with the idle word 0x0 is no event: only its sample is used up and
the result ports are empty (R72). -/
def Obligations.NopChangesNothing : Prop :=
  (∀ s, exec .nop s = .next s) ∧
  (∀ (s : State) (x : Sample), nextSample s = x → x.rst = false → x.ev = 0x0#4 → x.symIdx = none →
    step s = .next { s with inputs := s.inputs.tail, out := {} })

/-- The hardware treats the reserved codes as NOP, a `d = 1` in the same word still executes DONE, and the system-level
step refuses them by name (R75; that `step` runs them is the model's choice, log 8). -/
def Obligations.ReservedCodesDoNothing : Prop :=
  (∀ s, exec .reservedOp5 s = .next s ∧ exec .reservedOp6 s = .next s ∧ exec .reservedOp7 s = .next s) ∧
  (∀ (s : State) (x : Sample), nextSample s = x → x.rst = false → 5 ≤ (x.ev.extractLsb' 0 3).toNat →
    systemStep s = .refused .reservedOp ∧
    (x.symIdx = none →
      (x.ev.getLsbD 3 = false → step s = .next { s with inputs := s.inputs.tail, out := {} }) ∧
      (x.ev.getLsbD 3 = true → step s = .next { s with
        inputs := s.inputs.tail, out := {}, txPending := false, txState := .idle, outLevel := false })))

/-- RESET leaves every register of the core at its reset value, all three status outputs false and no strobe
(R190), and nothing outside the core changed: parameters, transmitter, environment. It is the operation of the pin `rst`. That
RESET leaves the transmitter's `tx_pending` is the model's, read from R193 (log 9). -/
def Obligations.ResetSetsEveryRegister : Prop :=
  (∀ x : Sample, x.rst = true → decode x = [.reset]) ∧
  ∀ s : State, ∃ t : State, exec .reset s = .next t ∧
    t.nch = 0 ∧ t.ch.length = s.params.nMax ∧ t.ctr.length = s.params.nMax ∧
    (∀ i < s.params.nMax, t.ch[i]? = some (⟨0, 0, .idle, 0⟩ : Channel) ∧ t.ctr[i]? = some (-1)) ∧
    t.txState = .idle ∧ t.outLevel = false ∧
    t.anyActive = false ∧ t.busy = false ∧ t.active = false ∧ t.txStart = false ∧
    t.params = s.params ∧ t.txPending = s.txPending ∧ t.inputs = s.inputs

/-- After RESET no entry of the stream buffer holds a value: the spec leaves the content unspecified and forbids reading it
(R33, U3); that the model keeps none is its choice (log 5). -/
def Obligations.ResetLeavesNoStreamValue : Prop :=
  ∀ s : State, ∃ t : State, exec .reset s = .next t ∧ ∀ k, streamGet t.stream k = none ∧
    (k < t.params.streamLen → streamRead t k = .error .streamUnwritten)

/-! ### INIT -/

/-- INIT, the operation of code 001, loads the configuration: `nch`, the converted intervals, every channel Idle, channels
above the list blank; it writes only Button Conditioning state, whatever the sequencer is doing; a list longer than
`N_MAX` is refused (R100, R103). -/
def Obligations.InitLoadsTheConfiguration : Prop :=
  (∀ x : Sample, x.rst = false → x.ev = 0x1#4 → decode x = [.init x.cfg]) ∧
  (∀ (s : State) (cfg : List CfgEntry), s.params.nMax < cfg.length →
    exec (.init cfg) s = .refused .initTooManyChannels) ∧
  ∀ (s : State) (cfg : List CfgEntry), cfg.length ≤ s.params.nMax →
    (∀ e ∈ cfg, e.debMs < 2 ^ s.params.msW ∧ e.repMs < 2 ^ s.params.msW ∧
      msToTicks s.params e.debMs < 2 ^ s.params.tickW ∧ msToTicks s.params e.repMs < 2 ^ s.params.tickW) →
    ∃ t : State, exec (.init cfg) s = .next t ∧ t = { s with nch := cfg.length, ch := t.ch } ∧
      t.ch.length = s.params.nMax ∧
      (∀ (i : Nat) (e : CfgEntry), cfg[i]? = some e →
        t.ch[i]? = some (⟨msToTicks s.params e.debMs, msToTicks s.params e.repMs, .idle, 0⟩ : Channel)) ∧
      (∀ i : Nat, cfg.length ≤ i → i < s.params.nMax → t.ch[i]? = some (⟨0, 0, .idle, 0⟩ : Channel)) ∧
      t.anyActive = false

/-- INIT's domain: a list longer than `N_MAX` and an interval that does not fit `TICK_W` bits are refused by name
(R102 c and d, R76); that a millisecond port carries `MS_W` bits is log 7. -/
def Obligations.InitRefusesOutsideItsDomain : Prop :=
  ∀ (s : State) (cfg : List CfgEntry),
    (s.params.nMax < cfg.length → exec (.init cfg) s = .refused .initTooManyChannels) ∧
    (cfg.length ≤ s.params.nMax →
      (∃ e ∈ cfg, 2 ^ s.params.tickW ≤ msToTicks s.params (e.debMs % 2 ^ s.params.msW) ∨
        2 ^ s.params.tickW ≤ msToTicks s.params (e.repMs % 2 ^ s.params.msW)) →
      exec (.init cfg) s = .refused .initIntervalTooWide)

/-- The conversion is round to nearest, an exact half up, 0 only for 0, and at least 1 for a positive value (R101). -/
def Obligations.MillisecondsRoundToNearestTick : Prop :=
  ∀ (p : Params) (ms : Nat), 1 ≤ p.tickMs →
    (msToTicks p ms = 0 ↔ ms = 0) ∧
    (0 < ms → 2 * ms < p.tickMs → msToTicks p ms = 1) ∧
    (0 < ms → p.tickMs ≤ 2 * ms →
      2 * (p.tickMs * msToTicks p ms) ≤ 2 * ms + p.tickMs ∧
      2 * ms + p.tickMs < 2 * (p.tickMs * (msToTicks p ms + 1)))

/-! ### BSVC -/

/-- The Idle state: `last <- now` at every poll; a pressed input makes the channel Triggered; no raw trigger bit
(R106, R107). -/
def Obligations.IdleChannelPoll : Prop :=
  ∀ (s : State) (now btn i : Nat) (c : Channel), i < s.nch → s.ch[i]? = some c → c.state = .idle →
    ∃ t : State, exec (.bsvc now btn) s = .next t ∧
      t.ch[i]? = some { c with
        last := now % 2 ^ s.params.tickW
        state := if btn.testBit i then .triggered else .idle } ∧
      (bsvcRaw s.params s.nch (now % 2 ^ s.params.tickW) btn s.ch).testBit i = false

/-- The Triggered state: a release cancels, first; an elapsed window confirms and emits the raw bit; otherwise nothing
changes (R108, R109, R110). -/
def Obligations.TriggeredChannelPoll : Prop :=
  ∀ (s : State) (now btn i : Nat) (c : Channel), i < s.nch → s.ch[i]? = some c → c.state = .triggered →
    let tick := now % 2 ^ s.params.tickW
    let elapsed := subMod s.params.tickW tick c.last
    let confirmed := btn.testBit i && decide (c.debounceInterval ≤ elapsed)
    ∃ t : State, exec (.bsvc now btn) s = .next t ∧
      t.ch[i]? = some (
        if btn.testBit i = false then { c with state := .idle, last := tick }
        else if confirmed then { c with state := .active, last := tick }
        else c) ∧
      (bsvcRaw s.params s.nch tick btn s.ch).testBit i = confirmed

/-- The Active state: a release ends the press silently, first; a due repeat emits the raw bit and resets `last`;
otherwise nothing changes, and an interval of 0 never repeats (R111, R112, R114). -/
def Obligations.ActiveChannelPoll : Prop :=
  ∀ (s : State) (now btn i : Nat) (c : Channel), i < s.nch → s.ch[i]? = some c → c.state = .active →
    let tick := now % 2 ^ s.params.tickW
    let elapsed := subMod s.params.tickW tick c.last
    let due := btn.testBit i && decide (0 < c.repeatInterval) && decide (c.repeatInterval ≤ elapsed)
    ∃ t : State, exec (.bsvc now btn) s = .next t ∧
      t.ch[i]? = some (
        if btn.testBit i = false then { c with state := .idle, last := tick }
        else if due then { c with last := tick }
        else c) ∧
      (bsvcRaw s.params s.nch tick btn s.ch).testBit i = due

/-- BSVC completes in every state and touches nothing but channel states, `last` and its two results: `nch`, the intervals,
the channels above `nch`, `cmd`, `tx_state`, `out_level` and `stream` stay (R20, R21, R26, R104). -/
def Obligations.PollingTouchesOnlyChannels : Prop :=
  ∀ (s : State) (now btn : Nat), ∃ (t : State) (m : Nat) (a : Bool), exec (.bsvc now btn) s = .next t ∧
    t = { s with ch := t.ch, out := { s.out with trigOut := some m, anyActive := some a } } ∧
    t.ch.length = s.ch.length ∧
    (∀ i, s.nch ≤ i → t.ch[i]? = s.ch[i]?) ∧
    (∀ (i : Nat) (c c' : Channel), s.ch[i]? = some c → t.ch[i]? = some c' →
      c'.debounceInterval = c.debounceInterval ∧ c'.repeatInterval = c.repeatInterval)

/-- Priority suppression reads the channels after phase 1, and changes none of them: the least configured Active channel `k`
clears the bits above `k` and keeps the bits `0..k`; without an Active channel the raw bits pass (R113). -/
def Obligations.LowestActiveChannelSuppresses : Prop :=
  ∀ (s : State) (now btn : Nat), s.nch ≤ s.params.nMax →
    let raw := bsvcRaw s.params s.nch (now % 2 ^ s.params.tickW) btn s.ch
    ∃ (t : State) (m : Nat), exec (.bsvc now btn) s = .next t ∧ t.out.trigOut = some m ∧
      t.ch = bsvcChannels s.params s.nch (now % 2 ^ s.params.tickW) btn s.ch ∧
      (∀ k, leastActive s.nch t.ch k → ∀ b, m.testBit b = (raw.testBit b && decide (b ≤ k))) ∧
      ((∀ k < s.nch, (t.ch[k]?).map Channel.state ≠ some .active) → m = raw)

/-- The result of BSVC has at most one bit set, and it is the bit of the least configured Active channel (R117 and R35,
which the spec derives from R109, R111 and R113). -/
def Obligations.AtMostOneTriggerSurvives : Prop :=
  ∀ (s : State) (now btn : Nat), s.Inv →
    ∃ (t : State) (m : Nat), exec (.bsvc now btn) s = .next t ∧ t.out.trigOut = some m ∧
      (m = 0 ∨ ∃ k, m = 2 ^ k ∧ leastActive t.nch t.ch k)

/-- `any_active` as BSVC returns it and as a status output: some configured channel is Triggered or Active after the poll
(R34, R115). -/
def Obligations.AnyActiveSeesTriggeredAndActive : Prop :=
  ∀ (s : State) (now btn : Nat), ∃ (t : State) (b : Bool), exec (.bsvc now btn) s = .next t ∧
    t.out.anyActive = some b ∧ t.anyActive = b ∧
    (b = true ↔ ∃ i c, i < s.nch ∧ t.ch[i]? = some c ∧ (c.state = .triggered ∨ c.state = .active))

/-- With no channel configured BSVC returns no trigger and `any_active` false, and changes no state (R122, R102 a, b). -/
def Obligations.NoChannelsMeansNoTriggers : Prop :=
  ∀ (s : State) (now btn : Nat), s.nch = 0 →
    exec (.bsvc now btn) s = .next { s with out := { s.out with trigOut := some 0, anyActive := some false } }

/-- Elapsed time is the modular difference: right across a wrap of the tick counter (R105). -/
def Obligations.ElapsedTimeSurvivesTheWrap : Prop :=
  ∀ w last e : Nat, e < 2 ^ w → subMod w ((last + e) % 2 ^ w) last = e ∧
    ∀ now, (subMod w now last : Int) = ((now : Int) - last) % 2 ^ w

/-- Timing of triggers with one POLL per tick: from a state whose channels are all Idle, with only button `i` held from
tick `t0`, `trig_out` is bit `i` exactly at the polls `max(D, 1)` and, where `R > 0`, `max(D, 1) + n*R`, and 0 at all others,
across any wrap of the tick (R119, which the spec derives from R107, R109 and R111; suppression, R113, clears no bit of the only Active channel). -/
def Obligations.HeldButtonTriggersOnSchedule : Prop :=
  ∀ (s : State) (i t0 n : Nat) (c : Channel), s.Inv → s.allIdle → i < s.nch → s.ch[i]? = some c →
    ∃ t : State, Sys2Proof.core.run (n + 1) { s with inputs := traceHold s.params i t0 (t0 + n) } = .next t ∧
      t.out.trigOut = some (if firesAt c n then 2 ^ i else 0)

/-- A transient is rejected, however the polls fall: whenever a run of polls from an Idle channel ends in a poll whose result has the
channel's bit, the channel was seen pressed at every poll from some poll `a` on, and at a later one of them its debounce
interval had elapsed since `a` (R120, which the spec derives from R108 and R110; R121). -/
def Obligations.TriggerNeedsAHeldWindow : Prop :=
  ∀ (s t : State) (polls : List (Nat × Nat)) (i m : Nat) (c : Channel), s.Inv → i < s.nch → s.ch[i]? = some c →
    c.state = .idle → 0 < polls.length →
    Sys2Proof.core.run polls.length { s with inputs := polls.map fun q => pollSample q.1 q.2 } = .next t →
    t.out.trigOut = some m → m.testBit i = true →
    ∃ a b, a < b ∧ b < polls.length ∧
      (∀ k q, a ≤ k → polls[k]? = some q → q.2.testBit i = true) ∧
      ∃ qa qb, polls[a]? = some qa ∧ polls[b]? = some qb ∧
        c.debounceInterval ≤ subMod s.params.tickW qb.1 qa.1

/-! ### ENC -/

/-- ENC under the invariants: the counter advances, the buffer becomes exactly the complete stream of the new payload in
closed form, every other register, counter and port is unchanged (R131, which the spec derives from R126 to R130); an index
that is no command is refused by name (the refusal is log 11). -/
def Obligations.EncodingWritesTheClosedForm : Prop :=
  ∀ (s : State) (j : Nat), s.Inv →
    (∀ base old, s.params.base[j]? = some base → s.ctr[j]? = some old →
      let c : Int := if old = s.params.maxCounter then 0 else old + 1
      exec (.enc j) s = .next { s with
        ctr := s.ctr.set j c
        stream := streamOf s.params (BitVec.ofNat 16 (base.toNat + c.toNat)) }) ∧
    (s.params.nMax ≤ j → exec (.enc j) s = .refused .noSuchCommand)

/-- The buffer after ENC entry by entry: `STREAM_LEN` entries and no other, each one of the five symbols, in the order of
the message (R83, R131). -/
def Obligations.StreamEntriesByIndex : Prop :=
  ∀ (p : Params) (pay : Payload) (k : Nat),
    streamGet (writeStream p pay []) k = (if k < p.streamLen then some (streamSymbol p pay k) else none)

/-- ENC advances its command's counter alone by the table of R126: the sentinel goes to 0, a value below `MAX_COUNTER` to the next
one, `MAX_COUNTER` to 0; so the counters of successive ENCs are 0, 1, ..., MAX_COUNTER, 0, 1, ... -/
def Obligations.CounterCyclesThroughItsRange : Prop :=
  (∀ (s : State) (j : Nat) (old : Int), j < s.params.nMax → s.ctr[j]? = some old → ∃ t : State,
    exec (.enc j) s = .next t ∧ t.ctr = s.ctr.set j (nextCounter s.params.maxCounter old)) ∧
  (∀ maxCounter : Nat, nextCounter maxCounter (-1) = 0 ∧ nextCounter maxCounter maxCounter = 0 ∧
    ∀ c : Nat, c < maxCounter → nextCounter maxCounter c = c + 1) ∧
  ∀ (maxCounter n : Nat), Nat.iterate (nextCounter maxCounter) (n + 1) (-1) = ((n % (maxCounter + 1) : Nat) : Int)

/-- Two successive sends of one command have different payloads, unless the counter wraps and `MAX_COUNTER` is a multiple
of `2^16`; within one cycle of a `MAX_COUNTER` below `2^16` all payloads differ (R127's consequence, which the spec derives
from R126). -/
def Obligations.SuccessivePayloadsDiffer : Prop :=
  ∀ (maxCounter : Nat) (base : Payload) (c : Nat), c ≤ maxCounter →
    (payloadOf base (nextCounter maxCounter c) = payloadOf base c ↔ c = maxCounter ∧ maxCounter % 2 ^ 16 = 0) ∧
    (∀ d : Nat, d ≤ maxCounter → maxCounter < 2 ^ 16 → payloadOf base c = payloadOf base d → c = d)

/-- Two streams are equal if and only if their payloads are (R131, which the spec derives from R126 to R130). -/
def Obligations.StreamDeterminesPayload : Prop :=
  ∀ (p : Params) (a b : Payload), p.wf → (streamOf p a = streamOf p b ↔ a = b)

/-! ### TSVC, DONE, POLL -/

/-- The Busy arm: whatever the bitmask, no state change, no start, result true (R146, R151). -/
def Obligations.BusySequencerDropsTriggers : Prop :=
  ∀ (s : State) (trig : Nat), s.txState = .busy →
    exec (.tsvc trig) s = .next { s with out := { s.out with busy := some true } }

/-- The Idle arm without a trigger: no state change, no start, result false (R147). -/
def Obligations.IdleSequencerWithoutTrigger : Prop :=
  ∀ (s : State) (trig : Nat), s.txState = .idle → (∀ i < s.params.nMax, trig.testBit i = false) →
    exec (.tsvc trig) s = .next { s with out := { s.out with busy := some false } }

/-- The start arm: the lowest set bit selects the command; in one step its counter advances and its stream is written as ENC does,
the indicator goes true, `tx_start` is strobed, the state becomes Busy and the result is true; nothing else changes
(R148, R149). -/
def Obligations.IdleSequencerStartsLowestTrigger : Prop :=
  ∀ (s : State) (trig j : Nat), s.txState = .idle → j < s.params.nMax → trig.testBit j = true →
    (∀ i < j, trig.testBit i = false) → ∃ u : State, exec (.enc j) s = .next u ∧
    exec (.tsvc trig) s = .next { s with
      ctr := u.ctr
      stream := u.stream
      outLevel := true
      txPending := true
      txState := .busy
      out := { s.out with started := some j, busy := some true } }

/-- The result of TSVC is `tx_state == Busy` after it, in every arm, and the status output `busy` (R150, which the spec derives from
R146, R147 and R149). -/
def Obligations.SequencerResultIsBusy : Prop :=
  ∀ (s : State) (trig : Nat), ∃ (t : State) (b : Bool), exec (.tsvc trig) s = .next t ∧ t.out.busy = some b ∧ t.busy = b ∧
    (b = true ↔ t.txState = .busy)

/-- DONE: `tx_state <- Idle`, `out_level <- false`, and nothing else; `busy` becomes false and `active` becomes `any_active`; it
is requested by bit 3 of the event word, with which the transmitter clears its `tx_pending` (R155). -/
def Obligations.DoneReturnsToIdle : Prop :=
  (∀ s : State, ∃ t : State, exec .done s = .next t ∧ t = { s with txState := .idle, outLevel := false } ∧
    t.busy = false ∧ t.active = t.anyActive) ∧
  ∀ (s : State) (x : Sample), nextSample s = x → x.rst = false → x.ev = 0x8#4 → x.symIdx = none →
    step s = .next { s with
      inputs := s.inputs.tail, out := {}, txPending := false, txState := .idle, outLevel := false }

/-- DONE is idempotent: in the Idle state it changes nothing, and two in a row equal one (R156). -/
def Obligations.DoneIsIdempotent : Prop :=
  ∀ s : State, (s.Inv → s.txState = .idle → exec .done s = .next s) ∧
    ∃ t : State, exec .done s = .next t ∧ exec .done t = .next t

/-- POLL, the operation of code 100, is BSVC then TSVC on its trigger result, with all four results (R160). -/
def Obligations.PollIsConditioningThenSequencing : Prop :=
  (∀ x : Sample, x.rst = false → x.ev = 0x4#4 → decode x = [.poll x.now x.btn]) ∧
  ∀ (s : State) (now btn : Nat), ∃ (u : State) (m : Nat) (a : Bool) (v : State) (b : Bool),
    exec (.bsvc now btn) s = .next u ∧ u.out.trigOut = some m ∧ u.out.anyActive = some a ∧
    exec (.tsvc m) u = .next v ∧ v.out.busy = some b ∧
    exec (.poll now btn) s = .next { v with out := { v.out with active := some (a || b) } } ∧
    a = v.anyActive ∧ b = v.busy

/-- While Busy a POLL still advances the channels exactly as BSVC does, and its trigger is dropped: no counter, no buffer
entry and no output action (R162, which the spec derives from R104 and R146). -/
def Obligations.PollWhileBusyOnlyConditions : Prop :=
  ∀ (s : State) (now btn : Nat), s.txState = .busy → ∃ u t : State,
    exec (.bsvc now btn) s = .next u ∧ exec (.poll now btn) s = .next t ∧
    t = { u with out := { u.out with busy := some true, active := some true } } ∧
    t.ctr = s.ctr ∧ t.stream = s.stream ∧ t.out.started = s.out.started

/-- A POLL starts at most one transmission: only from Idle, and then of the least Active channel, whose bit is the whole
trigger result (R161, which the spec derives from R117, R146 and R149). -/
def Obligations.PollStartsAtMostTheLowestActive : Prop :=
  ∀ (s : State) (now btn : Nat), s.Inv → s.out.started = none → ∃ (t : State) (m : Nat),
    exec (.poll now btn) s = .next t ∧ t.out.trigOut = some m ∧
    (t.out.started = none ↔ (s.txState = .busy ∨ m = 0)) ∧
    (∀ j, t.out.started = some j → m = 2 ^ j ∧ leastActive t.nch t.ch j ∧ t.txState = .busy)

/-- In a quiescent state a POLL with no button pressed changes nothing but `last` of the configured channels and reports
nothing active (R205, which the spec derives from R106 and R147). -/
def Obligations.QuiescentPollChangesOnlyTicks : Prop :=
  ∀ (s : State) (now : Nat), s.Inv → s.quiescent = true →
    exec (.poll now 0) s = .next { s with
      ch := (s.ch.take s.nch).map (fun c => { c with last := now % 2 ^ s.params.tickW }) ++ s.ch.drop s.nch
      out := { s.out with trigOut := some 0, anyActive := some false, busy := some false, active := some false } }

/-! ### Whole-machine rules -/

/-- No operation fails: every well-formed operation completes in every state (of an instantiation that meets R12), and what
stops at all is an INIT or an ENC outside its domain, by name (R165). The model's choice: the names and the ENC refusal
(log 11, 14), and that the reserved codes, which R75 says a model refuses and R17 does not count as operations, complete
here as the NOP of the hardware (log 8, unsafe). -/
def Obligations.EveryOperationInItsDomainCompletes : Prop :=
  (∀ (i : Instr) (s : State), s.params.wf → i.wf s.params = true → ∃ t : State, exec i s = .next t) ∧
  ∀ (i : Instr) (s : State), (∃ t : State, exec i s = .next t) ∨
    (∃ cfg, i = .init cfg ∧
      (exec i s = .refused .initTooManyChannels ∨ exec i s = .refused .initIntervalTooWide)) ∨
    ∃ j, i = .enc j ∧ s.params.nMax ≤ j ∧ exec i s = .refused .noSuchCommand

/-- Who may write what: an operation the table of R20 does not name for an element leaves it unchanged, the intervals of the
channels by rows of their own (R20, R22, R23, R26, R65); no operation changes the parameters (R38).
The buffer is the exception, by the model's choice: R20 names ENC alone and RESET does not write it (R190), but the model's
RESET takes every value out of it (log 5, unsafe); for RESET the statement says that no entry holds a value it did not hold
before. The last clause, about the transmitter's `tx_pending` (R41), which that table does not list, is the model's: RESET,
DONE and a direct ENC leave it (log 9). -/
def Obligations.OnlyNamedOperationsWriteAnElement : Prop :=
  ∀ (i : Instr) (s t : State), exec i s = .next t →
    t.params = s.params ∧ t.inputs = s.inputs ∧
    ((i ≠ .reset ∧ ∀ cfg, i ≠ .init cfg) → t.nch = s.nch) ∧
    ((i ≠ .reset ∧ (∀ cfg, i ≠ .init cfg) ∧ (∀ n b, i ≠ .bsvc n b) ∧ ∀ n b, i ≠ .poll n b) → t.ch = s.ch) ∧
    ((i ≠ .reset ∧ ∀ cfg, i ≠ .init cfg) →
      t.ch.map Channel.debounceInterval = s.ch.map Channel.debounceInterval ∧
      t.ch.map Channel.repeatInterval = s.ch.map Channel.repeatInterval) ∧
    ((i ≠ .reset ∧ (∀ j, i ≠ .enc j) ∧ (∀ m, i ≠ .tsvc m) ∧ ∀ n b, i ≠ .poll n b) →
      t.ctr = s.ctr ∧ t.stream = s.stream) ∧
    (((∀ j, i ≠ .enc j) ∧ (∀ m, i ≠ .tsvc m) ∧ ∀ n b, i ≠ .poll n b) →
      ∀ k y, streamGet t.stream k = some y → streamGet s.stream k = some y) ∧
    ((i ≠ .reset ∧ i ≠ .done ∧ (∀ m, i ≠ .tsvc m) ∧ ∀ n b, i ≠ .poll n b) →
      t.txState = s.txState ∧ t.outLevel = s.outLevel) ∧
    (((∀ m, i ≠ .tsvc m) ∧ ∀ n b, i ≠ .poll n b) → t.txPending = s.txPending)

/-- Single flight: a step that starts a transmission found the sequencer Idle, or took the completion of the one before in the same
step; a step without `rst` and without DONE that finds it Busy leaves it Busy and starts nothing; and every start advances
exactly the started command's counter (R154, which the spec derives from R146 and R149). -/
def Obligations.NoStartBeforeCompletion : Prop :=
  ∀ s t : State, step s = .next t →
    (∀ j, t.out.started = some j →
      (s.txState = .idle ∨ (nextSample s).ev.getLsbD 3 = true) ∧ (nextSample s).rst = false ∧ t.txState = .busy ∧
      t.ctr = s.ctr.set j (nextCounter s.params.maxCounter (s.ctr.getD j (-1)))) ∧
    (t.out.started = none → (nextSample s).rst = false → t.ctr = s.ctr ∧ t.stream = s.stream) ∧
    (s.txState = .busy → (nextSample s).rst = false → (nextSample s).ev.getLsbD 3 = false →
      t.txState = .busy ∧ t.outLevel = s.outLevel ∧ t.ctr = s.ctr ∧ t.stream = s.stream ∧ t.out.started = none)

/-- The sentinel is left by the first send and never comes back but by RESET: a counter at 0 or above stays so in every
step without `rst` (R29, where the spec derives it from R126). -/
def Obligations.SentCounterNeverReturnsToSentinel : Prop :=
  ∀ (s t : State) (j : Nat) (c : Int), step s = .next t → (nextSample s).rst = false → s.ctr[j]? = some c → 0 ≤ c →
    ∃ c', t.ctr[j]? = some c' ∧ 0 ≤ c'

/-- Every step keeps the invariants of R43 (which the spec derives), the register widths of R20 and the canonical form of the
buffer. -/
def Obligations.StepKeepsTheInvariants : Prop :=
  ∀ s t : State, s.Inv → step s = .next t → t.Inv

/-- The invariants hold right after reset, for every instantiation that meets R12, and so for the one of `State.reset`. -/
def Obligations.ResetMeetsTheInvariants : Prop :=
  (∀ p : Params, p.wf → (State.resetOf p).Inv) ∧ State.reset.Inv

/-- The system-level step is `step` where it goes on, and there the transmitter is never started while it plays, never
completes without a transmission and never reads without one (R41, R58, R172; what it refuses, also under `rst`, is log 18). -/
def Obligations.SystemStepKeepsTheContract : Prop :=
  ∀ s t : State, systemStep s = .next t →
    step s = .next t ∧
    ((nextSample s).ev.getLsbD 3 = true → s.txPending = true) ∧
    ((nextSample s).symIdx ≠ none → s.txPending = true) ∧
    (∀ j, t.out.started = some j → s.txPending = false ∨ (nextSample s).ev.getLsbD 3 = true)

/-- Under the contract `tx_pending = (tx_state == Busy)` holds between operations, where a RESET resets the transmitter
too or comes with nothing pending (R41, where the spec derives it from R149 and R155; R193; log 9, 18). -/
def Obligations.PendingExactlyWhileBusy : Prop :=
  ∀ s t : State, s.Inv → s.txPending = s.busy → systemStep s = .next t →
    ((nextSample s).rst = true → (nextSample s).rstTx = true ∨ s.txPending = false) →
    t.txPending = t.busy

/-- The status outputs are functions of the state: some configured channel not Idle, `tx_state` Busy, and their OR; all three
false after reset (R34). -/
def Obligations.StatusOutputsFollowTheState : Prop :=
  (∀ p : Params, (State.resetOf p).anyActive = false ∧ (State.resetOf p).busy = false ∧
    (State.resetOf p).active = false) ∧
  ∀ s : State,
    (s.anyActive = true ↔ ∃ i c, i < s.nch ∧ s.ch[i]? = some c ∧ c.state ≠ .idle) ∧
    (s.busy = true ↔ s.txState = .busy) ∧
    s.active = (s.anyActive || s.busy)

/-- The counter's register: two's complement of `CTR_W` bits holds every legal value, and the sentinel is all ones (R30). -/
def Obligations.CounterFitsItsRegister : Prop :=
  ∀ (p : Params) (c : Int), p.wf → -1 ≤ c → c ≤ p.maxCounter →
    (counterCode p c).toInt = c ∧ counterCode p (-1) = BitVec.allOnes p.ctrW

/-- The byte layout decided for implementers: entry `k` at offset `k * (DB + PB)`, duty first, each field little-endian;
a canonical buffer gives rising byte addresses (R54). -/
def Obligations.ByteLayoutIsLittleEndian : Prop :=
  ∀ (p : Params) (k : Nat) (y : Symbol),
    (∀ n < dutyBytes p, (entryBytes p k y)[n]? =
      some (k * (dutyBytes p + periodBytes p) + n, BitVec.ofNat 8 (y.duty / 256 ^ n))) ∧
    (∀ n < periodBytes p, (entryBytes p k y)[dutyBytes p + n]? =
      some (k * (dutyBytes p + periodBytes p) + dutyBytes p + n, BitVec.ofNat 8 (y.period / 256 ^ n))) ∧
    ∀ m : Memory, Memory.wf m → (byteLayout p m).Pairwise fun a b => a.1 < b.1
end

