-- ==== Sys2Proof/Laws/Bits.lean ====
section
/-! SUPPORT. Bitmasks, the least set bit, the low mask and modular subtraction, each by what it says of one bit or value. -/

namespace Sys2Proof.Machine

theorem testBit_maskOfBits (bs : List Bool) (i : Nat) : (maskOfBits bs).testBit i = bs.getD i false := by
  induction bs generalizing i with
  | nil => simp [maskOfBits]
  | cons b bs ih =>
    cases i with
    | zero => cases b <;> simp [maskOfBits, Nat.testBit_zero, Nat.add_mod]
    | succ i =>
      rw [Nat.testBit_succ]
      have : (b.toNat + 2 * maskOfBits bs) / 2 = maskOfBits bs := by cases b <;> (simp; try omega)
      simp [maskOfBits, this, ih]

theorem maskOfBits_all_false (bs : List Bool) (h : ∀ b ∈ bs, b = false) : maskOfBits bs = 0 := by
  induction bs with
  | nil => rfl
  | cons b bs ih => simp_all [maskOfBits]

theorem testBit_lowMask (n k i : Nat) : (lowMask n k).testBit i = (decide (i ≤ k) && decide (i < n)) := by
  simp only [lowMask, Nat.testBit_mod_two_pow, Nat.testBit_two_pow_sub_one]
  rw [Bool.and_comm]
  congr 1
  simp

/-- `lsb_index` answers `j` exactly where `j` is the least set bit below the width. -/
theorem lsbIndex_eq_some (n m j : Nat) :
    lsbIndex n m = some j ↔ j < n ∧ m.testBit j = true ∧ ∀ i < j, m.testBit i = false := by
  unfold lsbIndex
  rw [List.find?_range_eq_some]
  simp
  tauto

/-- `lsb_index` answers nothing exactly where every bit below the width is 0. -/
theorem lsbIndex_eq_none (n m : Nat) : lsbIndex n m = none ↔ ∀ i < n, m.testBit i = false := by
  simp [lsbIndex]

theorem lsbIndex_zero (n : Nat) : lsbIndex n 0 = none := by simp [lsbIndex_eq_none]

theorem lsbIndex_two_pow (n j : Nat) (h : j < n) : lsbIndex n (2 ^ j) = some j := by
  rw [lsbIndex_eq_some]
  refine ⟨h, by simp, fun i hi => ?_⟩
  rw [Nat.testBit_two_pow]
  simp; omega

theorem subMod_lt (w a b : Nat) : subMod w a b < 2 ^ w := BitVec.isLt _

theorem sampleTick_lt (p : Params) (now : Nat) : sampleTick p now < 2 ^ p.tickW :=
  Nat.mod_lt _ (Nat.two_pow_pos _)

end Sys2Proof.Machine
end

