-- ==== Sys2Proof/Laws/State.lean ====
section
/-! SUPPORT. One lemma per field per update of the state, so that no proof unfolds an update. -/

namespace Sys2Proof.Machine

variable (s : State)

@[simp] theorem State.setChannels_params (chs : List Channel) : (State.setChannels chs s).params = s.params := rfl
@[simp] theorem State.setChannels_nch (chs : List Channel) : (State.setChannels chs s).nch = s.nch := rfl
@[simp] theorem State.setChannels_ch (chs : List Channel) : (State.setChannels chs s).ch = chs := rfl
@[simp] theorem State.setChannels_ctr (chs : List Channel) : (State.setChannels chs s).ctr = s.ctr := rfl
@[simp] theorem State.setChannels_txState (chs : List Channel) : (State.setChannels chs s).txState = s.txState := rfl
@[simp] theorem State.setChannels_outLevel (chs : List Channel) : (State.setChannels chs s).outLevel = s.outLevel := rfl
@[simp] theorem State.setChannels_stream (chs : List Channel) : (State.setChannels chs s).stream = s.stream := rfl
@[simp] theorem State.setChannels_txPending (chs : List Channel) : (State.setChannels chs s).txPending = s.txPending := rfl
@[simp] theorem State.setChannels_out (chs : List Channel) : (State.setChannels chs s).out = s.out := rfl
@[simp] theorem State.setChannels_inputs (chs : List Channel) : (State.setChannels chs s).inputs = s.inputs := rfl

@[simp] theorem State.setConfig_params (n : Nat) (chs : List Channel) : (State.setConfig n chs s).params = s.params := rfl
@[simp] theorem State.setConfig_nch (n : Nat) (chs : List Channel) : (State.setConfig n chs s).nch = n := rfl
@[simp] theorem State.setConfig_ch (n : Nat) (chs : List Channel) : (State.setConfig n chs s).ch = chs := rfl
@[simp] theorem State.setConfig_ctr (n : Nat) (chs : List Channel) : (State.setConfig n chs s).ctr = s.ctr := rfl
@[simp] theorem State.setConfig_txState (n : Nat) (chs : List Channel) : (State.setConfig n chs s).txState = s.txState := rfl
@[simp] theorem State.setConfig_outLevel (n : Nat) (chs : List Channel) : (State.setConfig n chs s).outLevel = s.outLevel := rfl
@[simp] theorem State.setConfig_stream (n : Nat) (chs : List Channel) : (State.setConfig n chs s).stream = s.stream := rfl
@[simp] theorem State.setConfig_txPending (n : Nat) (chs : List Channel) : (State.setConfig n chs s).txPending = s.txPending := rfl
@[simp] theorem State.setConfig_out (n : Nat) (chs : List Channel) : (State.setConfig n chs s).out = s.out := rfl
@[simp] theorem State.setConfig_inputs (n : Nat) (chs : List Channel) : (State.setConfig n chs s).inputs = s.inputs := rfl

@[simp] theorem State.setCounter_params (j : Nat) (c : Int) : (State.setCounter j c s).params = s.params := rfl
@[simp] theorem State.setCounter_nch (j : Nat) (c : Int) : (State.setCounter j c s).nch = s.nch := rfl
@[simp] theorem State.setCounter_ch (j : Nat) (c : Int) : (State.setCounter j c s).ch = s.ch := rfl
@[simp] theorem State.setCounter_ctr (j : Nat) (c : Int) : (State.setCounter j c s).ctr = s.ctr.set j c := rfl
@[simp] theorem State.setCounter_txState (j : Nat) (c : Int) : (State.setCounter j c s).txState = s.txState := rfl
@[simp] theorem State.setCounter_outLevel (j : Nat) (c : Int) : (State.setCounter j c s).outLevel = s.outLevel := rfl
@[simp] theorem State.setCounter_stream (j : Nat) (c : Int) : (State.setCounter j c s).stream = s.stream := rfl
@[simp] theorem State.setCounter_txPending (j : Nat) (c : Int) : (State.setCounter j c s).txPending = s.txPending := rfl
@[simp] theorem State.setCounter_out (j : Nat) (c : Int) : (State.setCounter j c s).out = s.out := rfl
@[simp] theorem State.setCounter_inputs (j : Nat) (c : Int) : (State.setCounter j c s).inputs = s.inputs := rfl

@[simp] theorem State.setStream_params (m : Memory) : (State.setStream m s).params = s.params := rfl
@[simp] theorem State.setStream_nch (m : Memory) : (State.setStream m s).nch = s.nch := rfl
@[simp] theorem State.setStream_ch (m : Memory) : (State.setStream m s).ch = s.ch := rfl
@[simp] theorem State.setStream_ctr (m : Memory) : (State.setStream m s).ctr = s.ctr := rfl
@[simp] theorem State.setStream_txState (m : Memory) : (State.setStream m s).txState = s.txState := rfl
@[simp] theorem State.setStream_outLevel (m : Memory) : (State.setStream m s).outLevel = s.outLevel := rfl
@[simp] theorem State.setStream_stream (m : Memory) : (State.setStream m s).stream = m := rfl
@[simp] theorem State.setStream_txPending (m : Memory) : (State.setStream m s).txPending = s.txPending := rfl
@[simp] theorem State.setStream_out (m : Memory) : (State.setStream m s).out = s.out := rfl
@[simp] theorem State.setStream_inputs (m : Memory) : (State.setStream m s).inputs = s.inputs := rfl

@[simp] theorem State.setTxState_params (x : TxState) : (State.setTxState x s).params = s.params := rfl
@[simp] theorem State.setTxState_nch (x : TxState) : (State.setTxState x s).nch = s.nch := rfl
@[simp] theorem State.setTxState_ch (x : TxState) : (State.setTxState x s).ch = s.ch := rfl
@[simp] theorem State.setTxState_ctr (x : TxState) : (State.setTxState x s).ctr = s.ctr := rfl
@[simp] theorem State.setTxState_txState (x : TxState) : (State.setTxState x s).txState = x := rfl
@[simp] theorem State.setTxState_outLevel (x : TxState) : (State.setTxState x s).outLevel = s.outLevel := rfl
@[simp] theorem State.setTxState_stream (x : TxState) : (State.setTxState x s).stream = s.stream := rfl
@[simp] theorem State.setTxState_txPending (x : TxState) : (State.setTxState x s).txPending = s.txPending := rfl
@[simp] theorem State.setTxState_out (x : TxState) : (State.setTxState x s).out = s.out := rfl
@[simp] theorem State.setTxState_inputs (x : TxState) : (State.setTxState x s).inputs = s.inputs := rfl

@[simp] theorem State.setOutLevel_params (b : Bool) : (State.setOutLevel b s).params = s.params := rfl
@[simp] theorem State.setOutLevel_nch (b : Bool) : (State.setOutLevel b s).nch = s.nch := rfl
@[simp] theorem State.setOutLevel_ch (b : Bool) : (State.setOutLevel b s).ch = s.ch := rfl
@[simp] theorem State.setOutLevel_ctr (b : Bool) : (State.setOutLevel b s).ctr = s.ctr := rfl
@[simp] theorem State.setOutLevel_txState (b : Bool) : (State.setOutLevel b s).txState = s.txState := rfl
@[simp] theorem State.setOutLevel_outLevel (b : Bool) : (State.setOutLevel b s).outLevel = b := rfl
@[simp] theorem State.setOutLevel_stream (b : Bool) : (State.setOutLevel b s).stream = s.stream := rfl
@[simp] theorem State.setOutLevel_txPending (b : Bool) : (State.setOutLevel b s).txPending = s.txPending := rfl
@[simp] theorem State.setOutLevel_out (b : Bool) : (State.setOutLevel b s).out = s.out := rfl
@[simp] theorem State.setOutLevel_inputs (b : Bool) : (State.setOutLevel b s).inputs = s.inputs := rfl

@[simp] theorem State.beginTransmit_params (j : Nat) : (State.beginTransmit j s).params = s.params := rfl
@[simp] theorem State.beginTransmit_nch (j : Nat) : (State.beginTransmit j s).nch = s.nch := rfl
@[simp] theorem State.beginTransmit_ch (j : Nat) : (State.beginTransmit j s).ch = s.ch := rfl
@[simp] theorem State.beginTransmit_ctr (j : Nat) : (State.beginTransmit j s).ctr = s.ctr := rfl
@[simp] theorem State.beginTransmit_txState (j : Nat) : (State.beginTransmit j s).txState = s.txState := rfl
@[simp] theorem State.beginTransmit_outLevel (j : Nat) : (State.beginTransmit j s).outLevel = s.outLevel := rfl
@[simp] theorem State.beginTransmit_stream (j : Nat) : (State.beginTransmit j s).stream = s.stream := rfl
@[simp] theorem State.beginTransmit_txPending (j : Nat) : (State.beginTransmit j s).txPending = true := rfl
@[simp] theorem State.beginTransmit_out (j : Nat) : (State.beginTransmit j s).out = { s.out with started := some j } := rfl
@[simp] theorem State.beginTransmit_inputs (j : Nat) : (State.beginTransmit j s).inputs = s.inputs := rfl

@[simp] theorem State.setOut_params (o : Outputs) : (State.setOut o s).params = s.params := rfl
@[simp] theorem State.setOut_nch (o : Outputs) : (State.setOut o s).nch = s.nch := rfl
@[simp] theorem State.setOut_ch (o : Outputs) : (State.setOut o s).ch = s.ch := rfl
@[simp] theorem State.setOut_ctr (o : Outputs) : (State.setOut o s).ctr = s.ctr := rfl
@[simp] theorem State.setOut_txState (o : Outputs) : (State.setOut o s).txState = s.txState := rfl
@[simp] theorem State.setOut_outLevel (o : Outputs) : (State.setOut o s).outLevel = s.outLevel := rfl
@[simp] theorem State.setOut_stream (o : Outputs) : (State.setOut o s).stream = s.stream := rfl
@[simp] theorem State.setOut_txPending (o : Outputs) : (State.setOut o s).txPending = s.txPending := rfl
@[simp] theorem State.setOut_out (o : Outputs) : (State.setOut o s).out = o := rfl
@[simp] theorem State.setOut_inputs (o : Outputs) : (State.setOut o s).inputs = s.inputs := rfl

@[simp] theorem State.takeCompletion_params : (State.takeCompletion s).params = s.params := rfl
@[simp] theorem State.takeCompletion_nch : (State.takeCompletion s).nch = s.nch := rfl
@[simp] theorem State.takeCompletion_ch : (State.takeCompletion s).ch = s.ch := rfl
@[simp] theorem State.takeCompletion_ctr : (State.takeCompletion s).ctr = s.ctr := rfl
@[simp] theorem State.takeCompletion_txState : (State.takeCompletion s).txState = .idle := rfl
@[simp] theorem State.takeCompletion_outLevel : (State.takeCompletion s).outLevel = false := rfl
@[simp] theorem State.takeCompletion_stream : (State.takeCompletion s).stream = s.stream := rfl
@[simp] theorem State.takeCompletion_txPending : (State.takeCompletion s).txPending = s.txPending := rfl
@[simp] theorem State.takeCompletion_out : (State.takeCompletion s).out = s.out := rfl
@[simp] theorem State.takeCompletion_inputs : (State.takeCompletion s).inputs = s.inputs := rfl

@[simp] theorem State.resetCore_params : (State.resetCore s).params = s.params := rfl
@[simp] theorem State.resetCore_nch : (State.resetCore s).nch = 0 := rfl
@[simp] theorem State.resetCore_ch : (State.resetCore s).ch = List.replicate s.params.nMax Channel.blank := rfl
@[simp] theorem State.resetCore_ctr : (State.resetCore s).ctr = List.replicate s.params.nMax (-1) := rfl
@[simp] theorem State.resetCore_txState : (State.resetCore s).txState = .idle := rfl
@[simp] theorem State.resetCore_outLevel : (State.resetCore s).outLevel = false := rfl
@[simp] theorem State.resetCore_stream : (State.resetCore s).stream = [] := rfl
@[simp] theorem State.resetCore_txPending : (State.resetCore s).txPending = s.txPending := rfl
@[simp] theorem State.resetCore_out : (State.resetCore s).out = {} := rfl
@[simp] theorem State.resetCore_inputs : (State.resetCore s).inputs = s.inputs := rfl

@[simp] theorem State.dropSample_params : (State.dropSample s).params = s.params := rfl
@[simp] theorem State.dropSample_nch : (State.dropSample s).nch = s.nch := rfl
@[simp] theorem State.dropSample_ch : (State.dropSample s).ch = s.ch := rfl
@[simp] theorem State.dropSample_ctr : (State.dropSample s).ctr = s.ctr := rfl
@[simp] theorem State.dropSample_txState : (State.dropSample s).txState = s.txState := rfl
@[simp] theorem State.dropSample_outLevel : (State.dropSample s).outLevel = s.outLevel := rfl
@[simp] theorem State.dropSample_stream : (State.dropSample s).stream = s.stream := rfl
@[simp] theorem State.dropSample_txPending : (State.dropSample s).txPending = s.txPending := rfl
@[simp] theorem State.dropSample_out : (State.dropSample s).out = s.out := rfl
@[simp] theorem State.dropSample_inputs : (State.dropSample s).inputs = s.inputs.tail := rfl

@[simp] theorem State.present_params (x : Sample) : (State.present x s).params = s.params := rfl
@[simp] theorem State.present_nch (x : Sample) : (State.present x s).nch = s.nch := rfl
@[simp] theorem State.present_ch (x : Sample) : (State.present x s).ch = s.ch := rfl
@[simp] theorem State.present_ctr (x : Sample) : (State.present x s).ctr = s.ctr := rfl
@[simp] theorem State.present_txState (x : Sample) : (State.present x s).txState = s.txState := rfl
@[simp] theorem State.present_outLevel (x : Sample) : (State.present x s).outLevel = s.outLevel := rfl
@[simp] theorem State.present_stream (x : Sample) : (State.present x s).stream = s.stream := rfl
@[simp] theorem State.present_txPending (x : Sample) : (State.present x s).txPending = (s.txPending && !EventWord.d x.ev && !(x.rst && x.rstTx)) := rfl
@[simp] theorem State.present_out (x : Sample) : (State.present x s).out = {} := rfl
@[simp] theorem State.present_inputs (x : Sample) : (State.present x s).inputs = s.inputs := rfl

@[simp] theorem State.pushWord_params (w : Nat) : (s.pushWord w).params = s.params := rfl
@[simp] theorem State.pushWord_nch (w : Nat) : (s.pushWord w).nch = s.nch := rfl
@[simp] theorem State.pushWord_ch (w : Nat) : (s.pushWord w).ch = s.ch := rfl
@[simp] theorem State.pushWord_ctr (w : Nat) : (s.pushWord w).ctr = s.ctr := rfl
@[simp] theorem State.pushWord_txState (w : Nat) : (s.pushWord w).txState = s.txState := rfl
@[simp] theorem State.pushWord_outLevel (w : Nat) : (s.pushWord w).outLevel = s.outLevel := rfl
@[simp] theorem State.pushWord_stream (w : Nat) : (s.pushWord w).stream = s.stream := rfl
@[simp] theorem State.pushWord_txPending (w : Nat) : (s.pushWord w).txPending = s.txPending := rfl
@[simp] theorem State.pushWord_out (w : Nat) : (s.pushWord w).out = s.out := rfl
@[simp] theorem State.pushWord_inputs (w : Nat) : (s.pushWord w).inputs = sampleOfWord (BitVec.ofNat 4 w) :: s.inputs := rfl

@[simp] theorem State.resetOf_params (p : Params) : (State.resetOf p).params = p := rfl
@[simp] theorem State.resetOf_nch (p : Params) : (State.resetOf p).nch = 0 := rfl
@[simp] theorem State.resetOf_ch (p : Params) : (State.resetOf p).ch = List.replicate p.nMax Channel.blank := rfl
@[simp] theorem State.resetOf_ctr (p : Params) : (State.resetOf p).ctr = List.replicate p.nMax (-1) := rfl
@[simp] theorem State.resetOf_txState (p : Params) : (State.resetOf p).txState = .idle := rfl
@[simp] theorem State.resetOf_outLevel (p : Params) : (State.resetOf p).outLevel = false := rfl
@[simp] theorem State.resetOf_stream (p : Params) : (State.resetOf p).stream = [] := rfl
@[simp] theorem State.resetOf_txPending (p : Params) : (State.resetOf p).txPending = false := rfl
@[simp] theorem State.resetOf_out (p : Params) : (State.resetOf p).out = {} := rfl
@[simp] theorem State.resetOf_inputs (p : Params) : (State.resetOf p).inputs = [] := rfl

end Sys2Proof.Machine
end

