-- ==== Sys2Proof/Laws/Conditioning.lean ====
section
/-! SUPPORT. What INIT's conversion and one poll of the engine can do, said once. -/

namespace Sys2Proof.Machine

/-- An interval that INIT accepts is the converted value, and it fits. -/
theorem intervalOf_eq_some {p : Params} {ms t : Nat} :
    intervalOf p ms = some t ↔ msToTicks p (sampleMs p ms) = t ∧ t < 2 ^ p.tickW := by
  simp only [intervalOf]
  split <;> simp <;> intro h <;> omega

/-- A pair that INIT accepts gives an Idle channel with its two intervals. -/
theorem channelOfCfg_eq_some {p : Params} {e : CfgEntry} {c : Channel} :
    channelOfCfg p e = some c ↔ ∃ d r, intervalOf p e.debMs = some d ∧ intervalOf p e.repMs = some r ∧
      c = ⟨d, r, .idle, 0⟩ := by
  unfold channelOfCfg
  split
  · rename_i d r hd hr
    simp [hd, hr, eq_comm]
  · rename_i h
    simp only [reduceCtorEq, false_iff]
    rintro ⟨d, r, hd, hr, -⟩
    exact h d r hd hr

/-- The channels INIT makes are those of the pairs, in order; it accepts a list whose every pair converts. -/
theorem channelsOfCfg_eq_some {p : Params} {cfg : List CfgEntry} {cs : List Channel} :
    channelsOfCfg p cfg = some cs ↔ List.Forall₂ (fun e c => channelOfCfg p e = some c) cfg cs := by
  induction cfg generalizing cs with
  | nil => simp [channelsOfCfg, eq_comm]
  | cons e rest ih =>
    simp only [channelsOfCfg]
    split
    · rename_i c cs' hc hcs
      rw [List.forall₂_cons_left_iff]
      constructor
      · intro h
        cases h
        exact ⟨c, cs', hc, ih.mp hcs, rfl⟩
      · rintro ⟨c', cs'', hc', hcs', rfl⟩
        rw [hc] at hc'
        have := ih.mpr hcs'
        rw [hcs] at this
        cases hc'; cases this; rfl
    · rename_i h
      simp only [reduceCtorEq, false_iff]
      intro hf
      obtain ⟨c, cs', hc, hcs, rfl⟩ := List.forall₂_cons_left_iff.mp hf
      exact h c cs' hc (ih.mpr hcs)

theorem evalChannels_length (p : Params) (nch now btn : Nat) (chs : List Channel) :
    (evalChannels p nch now btn chs).length = chs.length := by simp [evalChannels]

@[simp] theorem bsvcChannels_length (p : Params) (nch now btn : Nat) (chs : List Channel) :
    (bsvcChannels p nch now btn chs).length = chs.length := by simp [bsvcChannels, evalChannels]

/-- Channel `i` after phase 1. -/
theorem bsvcChannels_getElem? (p : Params) (nch now btn : Nat) (chs : List Channel) (i : Nat) :
    (bsvcChannels p nch now btn chs)[i]? =
      (chs[i]?).map fun c => if i < nch then (evalChannel p now (btn.testBit i) c).1 else c := by
  simp only [bsvcChannels, evalChannels, List.getElem?_map, List.getElem?_mapIdx, Option.map_map]
  congr 1
  funext c
  simp only [Function.comp]
  split <;> rfl

/-- A poll keeps a channel's intervals. -/
theorem evalChannel_intervals (p : Params) (now : Nat) (pressed : Bool) (c : Channel) :
    (evalChannel p now pressed c).1.debounceInterval = c.debounceInterval ∧
      (evalChannel p now pressed c).1.repeatInterval = c.repeatInterval := by
  unfold evalChannel
  cases c.state <;> cases pressed <;> simp <;> split <;> simp

/-- Phase 1 keeps both intervals of every channel. -/
theorem bsvcChannels_intervals (p : Params) (nch now btn : Nat) (chs : List Channel) :
    (bsvcChannels p nch now btn chs).map Channel.debounceInterval = chs.map Channel.debounceInterval ∧
      (bsvcChannels p nch now btn chs).map Channel.repeatInterval = chs.map Channel.repeatInterval := by
  constructor <;> refine List.ext_getElem? fun i => ?_ <;>
    simp only [List.getElem?_map, bsvcChannels_getElem?, Option.map_map] <;>
    congr 1 <;> funext c <;> simp only [Function.comp] <;> split <;> simp [evalChannel_intervals]

/-- The raw trigger bit of channel `i`. -/
theorem testBit_bsvcRaw (p : Params) (nch now btn : Nat) (chs : List Channel) (i : Nat) :
    (bsvcRaw p nch now btn chs).testBit i =
      (decide (i < nch) && ((chs[i]?).map fun c => (evalChannel p now (btn.testBit i) c).2).getD false) := by
  simp only [bsvcRaw, testBit_maskOfBits, evalChannels, List.getD_eq_getElem?_getD, List.getElem?_map,
    List.getElem?_mapIdx, Option.map_map]
  cases chs[i]? <;> simp
  split <;> simp_all

/-- A raw trigger bit comes only from a channel that the poll leaves Active (R117). -/
theorem evalChannel_emits {p : Params} {now : Nat} {pressed : Bool} {c : Channel}
    (h : (evalChannel p now pressed c).2 = true) :
    pressed = true ∧ (evalChannel p now pressed c).1.state = .active := by
  unfold evalChannel at *
  cases hc : c.state <;> cases pressed <;> simp only [hc] at * <;> revert h <;> simp <;> split <;> simp_all

/-- The tick a poll leaves in a channel is the one it had or the poll's. -/
theorem evalChannel_last (p : Params) (now : Nat) (pressed : Bool) (c : Channel) :
    (evalChannel p now pressed c).1.last = c.last ∨ (evalChannel p now pressed c).1.last = now := by
  unfold evalChannel
  cases c.state <;> cases pressed <;> simp <;> split <;> simp

/-- The least Active channel, by what it is. -/
theorem firstActive_eq_some {nch : Nat} {chs : List Channel} {k : Nat} :
    firstActive nch chs = some k ↔ k < nch ∧ (chs[k]?).map Channel.state = some .active ∧
      ∀ i < k, (chs[i]?).map Channel.state ≠ some .active := by
  unfold firstActive
  rw [List.findIdx?_eq_some_iff_getElem]
  constructor
  · rintro ⟨hk, ha, hb⟩
    simp only [List.length_take] at hk
    refine ⟨by omega, by simpa [List.getElem?_eq_getElem (show k < chs.length by omega)] using ha, fun i hi => ?_⟩
    have := hb i hi
    simpa [List.getElem?_eq_getElem (show i < chs.length by omega)] using this
  · rintro ⟨hk, ha, hb⟩
    have hl : k < chs.length := by
      by_contra h
      simp [List.getElem?_eq_none (by omega : chs.length ≤ k)] at ha
    refine ⟨by simp; omega, by simpa [List.getElem?_eq_getElem hl] using ha, fun i hi => ?_⟩
    have := hb i hi
    simpa [List.getElem?_eq_getElem (show i < chs.length by omega)] using this

theorem firstActive_eq_none {nch : Nat} {chs : List Channel} :
    firstActive nch chs = none ↔ ∀ i < nch, (chs[i]?).map Channel.state ≠ some .active := by
  unfold firstActive
  rw [List.findIdx?_eq_none_iff]
  constructor
  · intro h i hi hc
    obtain ⟨c, hc, hs⟩ := Option.map_eq_some_iff.mp hc
    have hl : i < chs.length := (List.getElem?_eq_some_iff.mp hc).1
    have := h c (List.mem_take_iff_getElem.mpr ⟨i, by omega, (List.getElem?_eq_some_iff.mp hc).2⟩)
    simp [hs] at this
  · intro h c hc
    obtain ⟨i, hi, rfl⟩ := List.mem_take_iff_getElem.mp hc
    have := h i (by omega)
    simpa [List.getElem?_eq_getElem (show i < chs.length by omega)] using this

/-- `any_active` of a channel array, by what it is. -/
theorem anyActiveOf_eq_true {nch : Nat} {chs : List Channel} :
    anyActiveOf nch chs = true ↔ ∃ c ∈ chs.take nch, c.state ≠ .idle := by
  simp [anyActiveOf]

theorem bsvc_fst (now btn : Nat) (s : State) :
    (bsvc now btn s).1 = s.setChannels (bsvcChannels s.params s.nch (sampleTick s.params now) btn s.ch) := rfl

section
variable (now btn : Nat) (s : State)
@[simp] theorem bsvc_params : (bsvc now btn s).1.params = s.params := rfl
@[simp] theorem bsvc_nch : (bsvc now btn s).1.nch = s.nch := rfl
@[simp] theorem bsvc_ctr : (bsvc now btn s).1.ctr = s.ctr := rfl
@[simp] theorem bsvc_txState : (bsvc now btn s).1.txState = s.txState := rfl
@[simp] theorem bsvc_outLevel : (bsvc now btn s).1.outLevel = s.outLevel := rfl
@[simp] theorem bsvc_stream : (bsvc now btn s).1.stream = s.stream := rfl
@[simp] theorem bsvc_txPending : (bsvc now btn s).1.txPending = s.txPending := rfl
@[simp] theorem bsvc_out : (bsvc now btn s).1.out = s.out := rfl
@[simp] theorem bsvc_inputs : (bsvc now btn s).1.inputs = s.inputs := rfl
@[simp] theorem bsvc_ch : (bsvc now btn s).1.ch =
    bsvcChannels s.params s.nch (sampleTick s.params now) btn s.ch := rfl
end

end Sys2Proof.Machine
end

