-- ==== Sys2Proof/Laws/PerInstr.lean ====
section
/-! SUPPORT. The family TableRow: an operation's event word lies in its row of spec/opcode_table.json, `ev & mask = match`
(30_encoding.md R71). -/

namespace Sys2Proof.Laws.TableRow

/-- The event word that requests an operation matches the operation's row. -/
def Statement (i : Instr) : Prop :=
  ∀ x r, encode i = some x → i.row = some r → x.ev &&& r.2 = r.1

theorem nop : Statement .nop := by intro x r h h'; cases h; cases h'; decide +revert
theorem init (cfg : List CfgEntry) : Statement (.init cfg) := by intro x r h h'; cases h; cases h'; simp
theorem bsvc (now btn : Nat) : Statement (.bsvc now btn) := by intro x r h h'; cases h; cases h'; simp
theorem tsvc (trig : Nat) : Statement (.tsvc trig) := by intro x r h h'; cases h; cases h'; simp
theorem poll (now btn : Nat) : Statement (.poll now btn) := by intro x r h h'; cases h; cases h'; simp
theorem done : Statement .done := by intro x r h h'; cases h; cases h'; decide +revert
theorem reset : Statement .reset := by intro x r _ h'; cases h'
theorem enc (j : Nat) : Statement (.enc j) := by intro x r h _; cases h
theorem reservedOp5 : Statement .reservedOp5 := by intro x r h h'; cases h; cases h'; decide +revert
theorem reservedOp6 : Statement .reservedOp6 := by intro x r h h'; cases h; cases h'; decide +revert
theorem reservedOp7 : Statement .reservedOp7 := by intro x r h h'; cases h; cases h'; decide +revert

end Sys2Proof.Laws.TableRow
end

