-- ==== Sys2Proof/Laws/Sequencer.lean ====
section
/-! SUPPORT. What ENC's counter and the sequencer can do, said once. -/

namespace Sys2Proof.Machine

/-- The counter after its advance is a legal, non-negative counter, whatever it was (R126). -/
theorem nextCounter_range (maxCounter : Nat) (old : Int) :
    0 ≤ nextCounter maxCounter old ∧ nextCounter maxCounter old ≤ maxCounter := by
  unfold nextCounter
  simp only
  split <;> omega

/-- The table of R126 for the reachable values. -/
theorem nextCounter_of_range {maxCounter : Nat} {old : Int} (h : -1 ≤ old) (h' : old ≤ maxCounter) :
    nextCounter maxCounter old = if old = maxCounter then 0 else old + 1 := by
  unfold nextCounter
  simp only
  split <;> split <;> omega

/-- What TSVC can do: nothing, Busy or without a trigger, or start the command of the lowest trigger. -/
theorem tsvc_cases (trig : Nat) (s : State) :
    (tsvc trig s = s ∧ (s.txState = .busy ∨ lsbIndex s.params.nMax trig = none)) ∨
    ∃ j, s.txState = .idle ∧ lsbIndex s.params.nMax trig = some j ∧ tsvc trig s = startTransmission j s := by
  unfold tsvc
  cases hs : s.txState with
  | busy => exact .inl ⟨rfl, .inl rfl⟩
  | idle =>
    cases hl : lsbIndex s.params.nMax trig with
    | none => exact .inl ⟨by simp, .inr rfl⟩
    | some j => exact .inr ⟨j, rfl, rfl, by simp⟩

theorem tsvc_of_busy {s : State} (h : s.txState = .busy) (trig : Nat) : tsvc trig s = s := by
  simp [tsvc, h]

theorem tsvc_of_none {s : State} {trig : Nat} (h : lsbIndex s.params.nMax trig = none) : tsvc trig s = s := by
  unfold tsvc
  rw [h]
  cases s.txState <;> rfl

theorem tsvc_of_some {s : State} {trig j : Nat} (hs : s.txState = .idle) (h : lsbIndex s.params.nMax trig = some j) :
    tsvc trig s = startTransmission j s := by simp [tsvc, hs, h]

section
variable (j : Nat) (s : State)
@[simp] theorem encodeCommand_params : (encodeCommand j s).params = s.params := rfl
@[simp] theorem encodeCommand_nch : (encodeCommand j s).nch = s.nch := rfl
@[simp] theorem encodeCommand_ch : (encodeCommand j s).ch = s.ch := rfl
@[simp] theorem encodeCommand_txState : (encodeCommand j s).txState = s.txState := rfl
@[simp] theorem encodeCommand_outLevel : (encodeCommand j s).outLevel = s.outLevel := rfl
@[simp] theorem encodeCommand_txPending : (encodeCommand j s).txPending = s.txPending := rfl
@[simp] theorem encodeCommand_out : (encodeCommand j s).out = s.out := rfl
@[simp] theorem encodeCommand_inputs : (encodeCommand j s).inputs = s.inputs := rfl
@[simp] theorem startTransmission_params : (startTransmission j s).params = s.params := rfl
@[simp] theorem startTransmission_nch : (startTransmission j s).nch = s.nch := rfl
@[simp] theorem startTransmission_ch : (startTransmission j s).ch = s.ch := rfl
@[simp] theorem startTransmission_ctr : (startTransmission j s).ctr = (encodeCommand j s).ctr := rfl
@[simp] theorem startTransmission_stream : (startTransmission j s).stream = (encodeCommand j s).stream := rfl
@[simp] theorem startTransmission_txState : (startTransmission j s).txState = .busy := rfl
@[simp] theorem startTransmission_outLevel : (startTransmission j s).outLevel = true := rfl
@[simp] theorem startTransmission_txPending : (startTransmission j s).txPending = true := rfl
@[simp] theorem startTransmission_out : (startTransmission j s).out = { s.out with started := some j } := rfl
@[simp] theorem startTransmission_inputs : (startTransmission j s).inputs = s.inputs := rfl
end

/-- What an operation can do: it gives a next state or it is refused; there is no fault (R165). -/
theorem outcome_cases (o : Host.Outcome State Fault Refusal) : (∃ t, o = .next t) ∨ ∃ r, o = .refused r := by
  cases o with
  | next t => exact .inl ⟨t, rfl⟩
  | fault f => cases f
  | refused r => exact .inr ⟨r, rfl⟩

end Sys2Proof.Machine
end

