-- ==== Sys2Proof/Laws/Port.lean ====
section
/-! SUPPORT. What a step can do, said once. -/

namespace Sys2Proof.Machine

/-- The operations of a step are one, or DONE and then one. -/
theorem decode_cases (x : Sample) :
    (x.rst = true ∧ decode x = [.reset]) ∨
    (x.rst = false ∧ EventWord.d x.ev = false ∧ decode x = [decodeOp x]) ∨
    (x.rst = false ∧ EventWord.d x.ev = true ∧ decodeOp x = .nop ∧ decode x = [.done]) ∨
    (x.rst = false ∧ EventWord.d x.ev = true ∧ decodeOp x ≠ .nop ∧ decode x = [.done, decodeOp x]) := by
  unfold decode
  cases hr : x.rst
  · cases hd : EventWord.d x.ev
    · simp
    · cases ho : decodeOp x <;> simp
  · simp

/-- The operation a sample's field `op` selects is neither RESET, DONE nor ENC. -/
theorem decodeOp_cases (x : Sample) :
    decodeOp x = .nop ∨ decodeOp x = .init x.cfg ∨ decodeOp x = .bsvc x.now x.btn ∨ decodeOp x = .tsvc x.trigIn ∨
      decodeOp x = .poll x.now x.btn ∨ decodeOp x = .reservedOp5 ∨ decodeOp x = .reservedOp6 ∨
      decodeOp x = .reservedOp7 := by
  unfold decodeOp
  split <;> simp

/-- What runs in a step that goes on: the state the operations start from is `s.dropSample.present x`, and what they give is the
next state but for the read port. -/
theorem step_eq_next {s t : State} (h : step s = .next t) :
    ∃ y u, readPort (nextSample s) s = .ok y ∧
      runOps (decode (nextSample s)) (s.dropSample.present (nextSample s)) = .next u ∧
      t = u.setOut { u.out with sym := y } := by
  have h0 : readPort (nextSample s) s.dropSample = readPort (nextSample s) s := rfl
  unfold step machineStep sampleStep at h
  rw [h0] at h
  split at h
  · cases h
  · rename_i y hy
    split at h
    · rename_i u hu
      cases h
      exact ⟨y, u, hy, hu, rfl⟩
    · cases h
    · cases h

@[simp] theorem runOps_nil (s : State) : runOps [] s = .next s := rfl

theorem runOps_singleton (i : Instr) (s : State) : runOps [i] s = exec i s := by
  simp only [runOps]
  cases exec i s <;> rfl

theorem runOps_done (is : List Instr) (s : State) : runOps (.done :: is) s = runOps is s.takeCompletion := rfl

end Sys2Proof.Machine
end

