-- ==== Sys2Proof/Laws/Run.lean ====
section
/-! SUPPORT. Runs of the core, unrolled at their first and at their last step. -/

namespace Sys2Proof.Machine

theorem core_run_succ (k : Nat) (s : State) : Sys2Proof.core.run (k + 1) s =
    match step s with
    | .next t => Sys2Proof.core.run k t
    | .fault f => .fault f
    | .refused r => .refused r := by
  have unroll : ∀ (M : Host.Core) (s : M.State), M.run (k + 1) s =
      match M.step s with
      | .next t => M.run k t
      | .fault f => .fault f
      | .refused r => .refused r := fun _ _ => rfl
  refine (unroll Sys2Proof.core s).trans ?_
  have h : Sys2Proof.core.step s = step s := rfl
  generalize step s = o at h ⊢
  generalize Sys2Proof.core.step s = o' at h ⊢
  subst h
  cases o' <;> rfl

theorem core_run_succ_last (k : Nat) (s : State) : Sys2Proof.core.run (k + 1) s =
    match Sys2Proof.core.run k s with
    | .next t => step t
    | .fault f => .fault f
    | .refused r => .refused r := by
  induction k generalizing s with
  | zero =>
    rw [core_run_succ]
    simp only [Host.Core.run]
    cases step s <;> rfl
  | succ k ih =>
    rw [core_run_succ, core_run_succ k]
    cases step s with
    | next t => exact ih t
    | fault f => rfl
    | refused r => rfl

end Sys2Proof.Machine
end

