-- ==== Sys2Proof/Laws/Stream.lean ====
section
/-! SUPPORT. The stream buffer: a read after a write, the canonical form, and what the encoder's loops keep. -/

namespace Sys2Proof.Machine

@[simp] theorem symbolsPerMessage_eq : symbolsPerMessage = 18 := by decide

theorem streamLen_eq (p : Params) : p.streamLen = 18 * p.repeatCount := by
  rw [Params.streamLen, symbolsPerMessage_eq]

/-- A read after a write gives the value written at the index written and the old value everywhere else. -/
theorem streamGet_streamPut (m : Memory) (k : Nat) (y : Symbol) (i : Nat) :
    streamGet (streamPut m k y) i = if i = k then some y else streamGet m i := by
  induction m with
  | nil => simp [streamPut, streamGet]
  | cons e m ih =>
    obtain ⟨k', y'⟩ := e
    unfold streamPut
    split
    · simp [streamGet]
    · split
      · subst k; simp only [streamGet]; split <;> rfl
      · simp only [streamGet, ih]
        split
        · subst i; rw [if_neg (by omega)]
        · rfl

/-- An entry of the buffer after a write is the one written or one of before. -/
theorem mem_streamPut {m : Memory} {k : Nat} {y : Symbol} {e : Nat × Symbol} (h : e ∈ streamPut m k y) :
    e = (k, y) ∨ e ∈ m := by
  induction m with
  | nil => simpa [streamPut] using h
  | cons e' m ih =>
    unfold streamPut at h
    split at h
    · simpa using h
    · split at h
      · simp at h ⊢; tauto
      · simp only [List.mem_cons] at h ⊢
        rcases h with h | h
        · exact .inr (.inl h)
        · exact (ih h).imp_right .inr

/-- A write keeps the canonical form. -/
theorem streamPut_wf {m : Memory} (h : Memory.wf m) (k : Nat) (y : Symbol) : Memory.wf (streamPut m k y) := by
  induction m with
  | nil => simp [streamPut]
  | cons e m ih =>
    obtain ⟨k', y'⟩ := e
    obtain ⟨h1, h2⟩ := List.pairwise_cons.mp h
    unfold streamPut
    split
    · rename_i hk
      refine List.pairwise_cons.mpr ⟨fun e he => ?_, h⟩
      rcases List.mem_cons.mp he with rfl | he
      · exact hk
      · exact lt_trans hk (h1 e he)
    · split
      · subst k; exact List.pairwise_cons.mpr ⟨h1, h2⟩
      · refine List.pairwise_cons.mpr ⟨fun e he => ?_, ih h2⟩
        rcases mem_streamPut he with rfl | he
        · simp; omega
        · exact h1 e he

/-- An entry that a read finds is listed. -/
theorem mem_of_streamGet {m : Memory} {k : Nat} {y : Symbol} (h : streamGet m k = some y) : (k, y) ∈ m := by
  induction m with
  | nil => simp [streamGet] at h
  | cons e m ih =>
    obtain ⟨k', y'⟩ := e
    simp only [streamGet] at h
    split at h
    · cases h; simp_all
    · exact List.mem_cons_of_mem _ (ih h)

/-- In canonical form a read finds every listed entry. -/
theorem streamGet_of_mem {m : Memory} (hm : Memory.wf m) {k : Nat} {y : Symbol} (h : (k, y) ∈ m) :
    streamGet m k = some y := by
  induction m with
  | nil => simp at h
  | cons e m ih =>
    obtain ⟨k', y'⟩ := e
    obtain ⟨h1, h2⟩ := List.pairwise_cons.mp hm
    simp only [streamGet]
    rcases List.mem_cons.mp h with h | h
    · cases h; simp
    · have hk : k' < k := h1 _ h
      rw [if_neg (by omega)]; exact ih h2 h

/-- Two buffers in canonical form that read the same everywhere are equal. -/
theorem Memory.ext_of_wf {m m' : Memory} (h : Memory.wf m) (h' : Memory.wf m')
    (hg : ∀ k, streamGet m k = streamGet m' k) : m = m' := by
  have key : ∀ {a b : Memory}, Memory.wf a → (∀ k, streamGet a k = streamGet b k) → ∀ e ∈ a, e ∈ b :=
    fun ha hab e he => mem_of_streamGet ((hab e.1).symm.trans (streamGet_of_mem ha he))
  exact List.Pairwise.eq_of_mem_iff (r := fun a b => a.1 < b.1) h h'
    fun e => ⟨key h hg e, key h' (fun k => (hg k).symm) e⟩

/-- What the loops of ENC keep of the buffer. -/
theorem writeMessage_wf {m : Memory} (h : Memory.wf m) (k : Nat) (msg : List Symbol) :
    Memory.wf (writeMessage m k msg) := by
  induction msg generalizing m k with
  | nil => exact h
  | cons y rest ih => exact ih (streamPut_wf h k y) (k + 1)

theorem writeCopies_wf {m : Memory} (h : Memory.wf m) (msg : List Symbol) (n : Nat) :
    Memory.wf (writeCopies m msg n) := by
  unfold writeCopies
  induction n with
  | zero => exact h
  | succ n ih => rw [List.range_succ, List.foldl_append]; exact writeMessage_wf ih _ _

theorem holdGaps_wf (p : Params) {m : Memory} (h : Memory.wf m) (n : Nat) : Memory.wf (holdGaps p m n) := by
  unfold holdGaps
  induction n with
  | zero => exact h
  | succ n ih => rw [List.range_succ, List.foldl_append]; exact streamPut_wf ih _ _

/-- The buffer after ENC's writes is in canonical form. -/
theorem writeStream_wf (p : Params) (pay : Payload) {m : Memory} (h : Memory.wf m) :
    Memory.wf (writeStream p pay m) :=
  holdGaps_wf p (writeCopies_wf h _ _) _

@[simp] theorem message_length (p : Params) (pay : Payload) : (message p pay).length = symbolsPerMessage := by
  simp [message]

/-- A message writes its symbols at the indices from `k` and nothing else. -/
theorem streamGet_writeMessage (m : Memory) (k : Nat) (msg : List Symbol) (i : Nat) :
    streamGet (writeMessage m k msg) i =
      if k ≤ i ∧ i < k + msg.length then msg[i - k]? else streamGet m i := by
  induction msg generalizing m k with
  | nil => simp [writeMessage]
  | cons y rest ih =>
    rw [writeMessage, ih, streamGet_streamPut]
    by_cases hi : i = k
    · subst hi; simp
    · by_cases hk : k ≤ i
      · obtain ⟨d, rfl⟩ : ∃ d, i = k + 1 + d := ⟨i - (k + 1), by omega⟩
        have h1 : k + 1 + d - k = d + 1 := by omega
        simp only [h1, List.getElem?_cons_succ, List.length_cons, Nat.add_sub_cancel_left, if_neg hi]
        split <;> split <;> first | rfl | omega
      · rw [if_neg (by omega), if_neg hi, if_neg (by omega)]

end Sys2Proof.Machine
end

