-- ==== Sys2Proof/Tests/Slice0.lean ====
section
/-! SUPPORT. Tests on small states under `REFCFG`, with the expected values of spec/95_test_vectors.md (vectors V<n>), and a
named witness for every obligation that has hypotheses. -/

namespace Sys2Proof.Tests

open Sys2Proof.Machine

/-! ### Helpers -/

/-- `REFCFG` after `INIT [(50,0),(50,330),(50,0)]` (R13), every channel Idle. -/
def wIdle : State :=
  { State.reset with nch := 3, ch := [⟨5, 0, .idle, 0⟩, ⟨5, 33, .idle, 0⟩, ⟨5, 0, .idle, 0⟩] }

/-- The same while command 0's first transmission plays. -/
def wBusy : State :=
  { wIdle with
    ctr := [0, -1, -1]
    txState := .busy
    outLevel := true
    txPending := true
    stream := streamOf Params.refcfg 0xA5C3#16 }

/-- The same with channel 0 Triggered since tick 0. -/
def wTriggered : State := { wIdle with ch := [⟨5, 0, .triggered, 0⟩, ⟨5, 33, .idle, 0⟩, ⟨5, 0, .idle, 0⟩] }

/-- The same with channel 1 Active since tick 5. -/
def wActive : State := { wIdle with ch := [⟨5, 0, .idle, 0⟩, ⟨5, 33, .active, 5⟩, ⟨5, 0, .idle, 0⟩] }

/-- A state that the environment presents a sample to. -/
def given (s : State) (x : Sample) : State := { s with inputs := [x] }

/-- A check of the state an operation leaves; false where it stops. -/
def leaves (i : Instr) (s : State) (check : State → Bool) : Bool := (nextOf (exec i s)).any check

/-- A check of the state a step on a sample leaves; false where it stops. -/
def steps (s : State) (x : Sample) (check : State → Bool) : Bool := (nextOf (step (given s x))).any check

/-! ### What WellFormed refuses: one ill-formed term for each check -/

/-- None of these parameter sets is well formed. -/
def refusesAll (ps : List Params) : Bool := ps.all fun p => !decide p.wf

theorem test_wf_refcfg : Params.refcfg.wf := by decide

theorem test_wf_counts_refused :
    refusesAll
    [ { Params.refcfg with tickW := 0 }, { Params.refcfg with tickMs := 0 }, { Params.refcfg with msW := 0 },
      { Params.refcfg with ctrW := 0, maxCounter := 0 }, { Params.refcfg with maxCounter := 128 },
      { Params.refcfg with nMax := 2 }, { Params.refcfg with repeatCount := 0 }, { Params.refcfg with dutyW := 0 },
      { Params.refcfg with periodW := 0 }, { Params.refcfg with baseUnit := 0 } ] = true := by
  decide

theorem test_wf_bit_symbols_refused :
    refusesAll
    [ { Params.refcfg with zero := ⟨100, 200⟩ }, { Params.refcfg with one := ⟨100, 100⟩ },
      { Params.refcfg with zero := ⟨50, 50⟩ }, { Params.refcfg with one := ⟨101, 250⟩ },
      { Params.refcfg with one := ⟨100, 251⟩ }, { Params.refcfg with zero := ⟨0, 200⟩ },
      { Params.refcfg with zero := ⟨50, 201⟩ } ] = true := by
  decide

theorem test_wf_symbol_widths_refused :
    refusesAll
    [ { Params.refcfg with sof := ⟨65536, 300⟩ }, { Params.refcfg with ifg := ⟨200, 65536⟩ },
      { Params.refcfg with zero := ⟨50, 65550⟩ }, { Params.refcfg with one := ⟨100, 65550⟩ } ] = true := by
  decide

theorem test_wf_operands_refused :
    Instr.wf Params.refcfg (.init (List.replicate 4 ⟨50, 0⟩)) = false ∧
    Instr.wf Params.refcfg (.init [⟨2 ^ 32, 0⟩]) = false ∧ Instr.wf Params.refcfg (.init [⟨0, 2 ^ 32⟩]) = false ∧
    Instr.wf { Params.refcfg with tickW := 4 } (.init [⟨155, 0⟩]) = false ∧
    Instr.wf { Params.refcfg with tickW := 4 } (.init [⟨0, 155⟩]) = false ∧
    Instr.wf Params.refcfg (.bsvc (2 ^ 32) 0) = false ∧ Instr.wf Params.refcfg (.bsvc 0 8) = false ∧
    Instr.wf Params.refcfg (.tsvc 8) = false ∧ Instr.wf Params.refcfg (.poll (2 ^ 32) 0) = false ∧
    Instr.wf Params.refcfg (.poll 0 8) = false ∧ Instr.wf Params.refcfg (.enc 3) = false := by
  decide

theorem test_wf_sample_refused :
    Sample.wf Params.refcfg { now := 2 ^ 32 } = false ∧ Sample.wf Params.refcfg { btn := 8 } = false ∧
    Sample.wf Params.refcfg { trigIn := 8 } = false ∧ Sample.wf Params.refcfg { cfg := [⟨2 ^ 32, 0⟩] } = false ∧
    Sample.wf Params.refcfg { cfg := [⟨0, 2 ^ 32⟩] } = false := by
  decide

theorem test_wf_memory_refused :
    ¬ Memory.wf [(1, ⟨0, 0⟩), (0, ⟨0, 0⟩)] ∧ ¬ Memory.wf [(1, ⟨0, 0⟩), (1, ⟨1, 1⟩)] := by
  decide

/-! ### Decoding: the words of R71, R75, R87 written out bit by bit, ENC and numbers above the event word have none -/

theorem test_decode_words :
    decodeTableWord 8 0b0000 = some .nop ∧ decodeTableWord 8 0b0001 = some (.init []) ∧
    decodeTableWord 8 0b0010 = some (.bsvc 0 0) ∧ decodeTableWord 8 0b0011 = some (.tsvc 0) ∧
    decodeTableWord 8 0b0100 = some (.poll 0 0) ∧ decodeTableWord 8 0b0101 = some .reservedOp5 ∧
    decodeTableWord 8 0b0110 = some .reservedOp6 ∧ decodeTableWord 8 0b0111 = some .reservedOp7 ∧
    decodeTableWord 8 0b1000 = some .done ∧ decodeTableWord 8 0b10000 = none := by
  decide

theorem test_decode_operands :
    decode { ev := 0b0001#4, cfg := [⟨50, 330⟩] } = [.init [⟨50, 330⟩]] ∧
    decode { ev := 0b0010#4, now := 42, btn := 0b011 } = [.bsvc 42 0b011] ∧
    decode { ev := 0b0011#4, trigIn := 0b110 } = [.tsvc 0b110] ∧
    decode { ev := 0b1100#4, now := 82 } = [.done, .poll 82 0] ∧
    decode { rst := true, ev := 0b1100#4 } = [.reset] ∧ encode (.enc 0) = none := by
  decide

/-- A table word placed for the step is the next thing the step runs, right after reset. -/
theorem test_fetch_word :
    (nextOf (step (State.reset.withFetchWord 8 0x4))).map (fun t => t.out.active) = some (some false) ∧
    (nextOf (step (State.reset.withFetchWord 8 0x3))).map (fun t => t.out.busy) = some (some false) ∧
    (nextOf (step (State.reset.withFetchWord 8 0x8))).map (fun t => t.inputs) = some [] := by
  decide

/-- The table's rows of op 000 to 111 do not overlap. -/
theorem test_rows_disjoint :
    ([Instr.nop, .init [], .bsvc 0 0, .tsvc 0, .poll 0 0, .reservedOp5, .reservedOp6, .reservedOp7].filterMap
      Instr.row).Pairwise fun a b => a.1 &&& b.2 ≠ b.1 := by
  decide

/-! ### Conditioning: V1 to V29, V43 to V50 -/

theorem test_ms_to_ticks :
    [0, 1, 4, 5, 9, 10, 14, 15, 24, 25, 50, 330, 334, 335].map (msToTicks Params.refcfg) =
    [0, 1, 1, 1, 1, 1, 1, 2, 2, 3, 5, 33, 33, 34] := by
  decide

/-- The worked example of R100. -/
theorem test_init_example :
    leaves (.init [⟨50, 0⟩, ⟨50, 330⟩, ⟨50, 0⟩]) State.reset (fun t => decide (t.nch = 3 ∧ t.ch = wIdle.ch)) = true := by
  decide

/-- V69: INIT in a transmission leaves the sequencer alone. -/
theorem test_init_while_busy :
    leaves (.init [⟨50, 0⟩]) wBusy (fun t => t.busy && t.outLevel && decide (t.ctr = [0, -1, -1] ∧ t.nch = 1)) = true := by
  decide

/-- One vector of 95_test_vectors.md, section 2.2: channel 0 before, `now`, `btn[0]`, then channel 0's state and tick, `trig_out` and
`any_active` after. -/
def armVector (st : ChState) (last d r now : Nat) (btn : Nat) (st' : ChState) (last' trig : Nat) (any : Bool) : Bool :=
  leaves (.bsvc now btn) { wIdle with nch := 1, ch := [⟨d, r, st, last⟩] } fun t =>
    decide (t.ch = [⟨d, r, st', last'⟩] ∧ t.out.trigOut = some trig ∧ t.out.anyActive = some any)

theorem test_bsvc_arms :
    armVector .idle 41 5 0 42 0 .idle 42 0 false = true ∧
    armVector .idle 41 5 0 42 1 .triggered 42 0 true = true ∧
    armVector .triggered 0 5 0 4 1 .triggered 0 0 true = true ∧
    armVector .triggered 0 5 0 5 1 .active 5 1 true = true ∧
    armVector .triggered 0 5 0 9 1 .active 9 1 true = true ∧
    armVector .triggered 0 5 0 5 0 .idle 5 0 false = true ∧
    armVector .triggered 7 0 0 7 1 .active 7 1 true = true ∧
    armVector .active 5 5 33 37 1 .active 5 0 true = true ∧
    armVector .active 5 5 33 38 1 .active 38 1 true = true ∧
    armVector .active 5 5 33 38 0 .idle 38 0 false = true ∧
    armVector .active 5 5 0 1000005 1 .active 5 0 true = true ∧
    armVector .triggered 0xFFFFFFFE 5 0 2 1 .triggered 0xFFFFFFFE 0 true = true ∧
    armVector .triggered 0xFFFFFFFE 5 0 3 1 .active 3 1 true = true ∧
    armVector .active 0xFFFFFFF0 5 33 0x11 1 .active 0x11 1 true = true ∧
    armVector .triggered 10 5 0 3 1 .active 3 1 true = true := by
  decide

/-- V50, and V43 and V44 in phase 2. -/
theorem test_bsvc_suppression :
    leaves (.bsvc 8 0b100) { wIdle with ch := [⟨5, 0, .active, 5⟩, ⟨5, 33, .idle, 0⟩, ⟨5, 0, .triggered, 3⟩] }
      (fun t => decide (t.out.trigOut = some 0b100 ∧ (t.ch.map Channel.state) = [.idle, .idle, .active])) = true ∧
    suppress Params.refcfg 0b101 (some 0) = 0b001 ∧ suppress Params.refcfg 0b100 (some 0) = 0b000 ∧
    suppress Params.refcfg 0b110 (some 1) = 0b010 ∧ suppress Params.refcfg 0b100 (some 2) = 0b100 := by
  decide

/-! ### Encoder: V30, V31 -/

theorem test_enc_first_stream :
    leaves (.enc 0) State.reset (fun t => decide (t.ctr = [0, -1, -1] ∧ t.stream.length = 54 ∧
      [0, 1, 2, 15, 17, 35, 36, 53].map (streamGet t.stream) =
        [some ⟨150, 300⟩, some ⟨100, 250⟩, some ⟨50, 200⟩, some ⟨100, 250⟩, some ⟨65535, 5000⟩, some ⟨65535, 5000⟩,
          some ⟨150, 300⟩, some ⟨200, 5000⟩])) = true := by
  decide

theorem test_enc_counter_and_payload :
    [-1, 0, 1, 2, 3].map (nextCounter 3) = [0, 1, 2, 3, 0] ∧
    [0, 1, 2, 3].map (payloadOf 0xFFFE#16) = [0xFFFE#16, 0xFFFF#16, 0x0000#16, 0x0001#16] := by
  decide

/-! ### Sequencer: V60 to V67, and the worked example of R160 -/

theorem test_tsvc_starts_lowest :
    leaves (.tsvc 0b110) State.reset (fun t => t.busy && t.outLevel && t.txPending &&
      decide (t.ctr = [-1, 0, -1] ∧ t.out.started = some 1 ∧ t.out.busy = some true ∧
        streamGet t.stream 5 = some ⟨100, 250⟩ ∧ streamGet t.stream 4 = some ⟨50, 200⟩)) = true := by
  decide

theorem test_tsvc_busy_drops :
    leaves (.tsvc 0b001) wBusy (fun t => decide (t.ctr = [0, -1, -1] ∧ t.out.started = none ∧ t.out.busy = some true)) = true := by
  decide

theorem test_poll_confirms_and_starts :
    leaves (.poll 5 0b001) wTriggered (fun t => decide (t.out.trigOut = some 0b001 ∧ t.out.anyActive = some true ∧
      t.out.busy = some true ∧ t.out.active = some true ∧ t.out.started = some 0 ∧ t.ctr = [0, -1, -1])) = true := by
  decide

/-- Program B, step 41: the repeat at tick 38 finds the sequencer Busy. -/
theorem test_poll_while_busy :
    leaves (.poll 38 0b010) { wBusy with ch := wActive.ch } (fun t => decide (t.out.trigOut = some 0b010 ∧
      t.out.started = none ∧ t.ch.map Channel.last = [38, 38, 38] ∧ t.ctr = [0, -1, -1])) = true := by
  decide

theorem test_done :
    leaves .done wBusy (fun t => !t.busy && !t.outLevel && decide (t.stream = wBusy.stream)) = true := by
  decide

/-- V67: DONE first, then TSVC starts command 0, in one step. -/
theorem test_done_then_tsvc :
    steps { wBusy with ctr := [-1, 0, 0] } { ev := 0xB#4, trigIn := 0b001 } (fun t => t.busy && t.outLevel &&
      decide (t.ctr = [0, 0, 0] ∧ t.out.started = some 0)) = true := by
  decide

/-- V70, and `ev` ignored. -/
theorem test_reset_pin :
    steps wBusy { rst := true, ev := 0x3#4, trigIn := 1 } (fun t => !t.busy && !t.outLevel &&
      decide (t.ctr = [-1, -1, -1] ∧ t.nch = 0 ∧ t.out = {})) = true := by
  decide

/-- V68. -/
theorem test_nop : steps wBusy {} (fun t => decide (t = wBusy)) = true := by decide

theorem test_reserved :
    leaves .reservedOp5 wBusy (fun t => decide (t = wBusy)) = true ∧
    leaves .reservedOp6 wBusy (fun t => decide (t = wBusy)) = true ∧
    leaves .reservedOp7 wBusy (fun t => decide (t = wBusy)) = true := by
  decide

theorem test_reserved_words :
    steps wBusy { ev := 0x5#4 } (fun t => decide (t = wBusy)) = true ∧
    steps wBusy { ev := 0xF#4 } (fun t => !t.busy) = true ∧
    refusalOf (systemStep (given wBusy { ev := 0x5#4 })) = some .reservedOp := by
  decide

/-! ### Witnesses: for every obligation with hypotheses, a state and operands that meet them all -/

theorem inv_wIdle : wIdle.Inv :=
  ⟨by decide, by decide, by decide, by decide, by decide, by decide, by decide, by decide, by decide, by decide,
    fun h => (by cases h), fun h => (by cases h)⟩

theorem inv_wBusy : wBusy.Inv :=
  ⟨by decide, by decide, by decide, by decide, by decide, by decide, by decide, by decide, by decide, by decide,
    fun _ => ⟨0, by decide, by decide, rfl⟩, fun _ => rfl⟩

/-- The invariants do not look at the samples to come. -/
theorem inv_given {s : State} (h : s.Inv) (x : Sample) : (given s x).Inv :=
  ⟨h.1, h.2, h.3, h.4, h.5, h.6, h.7, h.8, h.9, h.10, h.11, h.12⟩

/-- Every hypothesis about the pin and the event word: the sixteen words. -/
theorem test_witness_EventWordsDecodeAsTabulated :
    ({ rst := true } : Sample).rst = true ∧
    ∀ w ∈ List.range 16, (sampleOfWord (BitVec.ofNat 4 w)).rst = false ∧ (sampleOfWord (BitVec.ofNat 4 w)).ev.toNat = w := by
  decide

theorem test_witness_DecodeAndEncodeAgree :
    Instr.wf Params.refcfg (.init [⟨50, 330⟩]) = true ∧ (∀ j, Instr.init [⟨50, 330⟩] ≠ .enc j) ∧
    Instr.wf Params.refcfg (.poll (2 ^ 32 - 1) 7) = true ∧ Instr.hasOp (.poll (2 ^ 32 - 1) 7) = true ∧
    ({} : Sample).rst = false :=
  ⟨by decide, fun _ h => (by cases h), by decide, by decide, rfl⟩

theorem test_witness_RunExpandsToPolls : 6 ≤ 37 ∧ 31 < 37 - 6 + 1 := by decide

/-- One operation that completes, one that is refused; DONE and one that completes, DONE and one that is refused. -/
theorem test_witness_StepRunsTheDecodedOperations :
    nextSample (given wIdle { ev := 0x3#4, trigIn := 1 }) = { ev := 0x3#4, trigIn := 1 } ∧
    readPort { ev := 0x3#4, trigIn := 1 } wIdle = .ok none ∧
    decode { ev := 0x3#4, trigIn := 1 } = [.tsvc 1] ∧ (nextOf (exec (.tsvc 1) wIdle)).isSome = true ∧
    decode { ev := 0x1#4, cfg := List.replicate 4 ⟨0, 0⟩ } = [.init (List.replicate 4 ⟨0, 0⟩)] ∧
    refusalOf (exec (.init (List.replicate 4 ⟨0, 0⟩)) wIdle) = some .initTooManyChannels ∧
    decode { ev := 0xB#4, trigIn := 1 } = [.done, .tsvc 1] ∧
    decode { ev := 0x9#4, cfg := List.replicate 4 ⟨0, 0⟩ } = [.done, .init (List.replicate 4 ⟨0, 0⟩)] :=
  ⟨rfl, rfl, by decide, by decide, by decide, by decide, by decide, by decide⟩

theorem test_witness_ResetPinOverridesEventWord :
    nextSample (given wBusy { rst := true, ev := 0xC#4 }) = { rst := true, ev := 0xC#4 } ∧
    ({ rst := true, ev := 0xC#4 } : Sample).symIdx = none := by
  decide

/-- The lowest set bit is bit 1. -/
theorem test_witness_CompletionComesBeforeTheOperation :
    nextSample (given wBusy { ev := 0xB#4, trigIn := 0b110 }) = { ev := 0xB#4, trigIn := 0b110 } ∧ 1 < wBusy.params.nMax ∧
    Nat.testBit 0b110 1 = true ∧ (∀ i < 1, Nat.testBit 0b110 i = false) := by
  decide

/-- An index at the end of the buffer, the last entry without a value, the last entry with one. -/
theorem test_witness_StreamReadPortShowsTheEntry :
    (nextSample (given wIdle { symIdx := some 54 })).symIdx = some 54 ∧ wIdle.params.streamLen ≤ 54 ∧
    53 < wIdle.params.streamLen ∧ streamGet wIdle.stream 53 = none ∧
    streamGet wBusy.stream 53 = some ⟨200, 5000⟩ ∧
    steps wBusy { symIdx := some 53 } (fun t => decide (t.out.sym = some ⟨200, 5000⟩)) = true := by
  decide

theorem test_witness_NopChangesNothing :
    nextSample (given wBusy { trigIn := 1 }) = { trigIn := 1 } ∧ ({ trigIn := 1 } : Sample).ev = 0x0#4 ∧
    ({ trigIn := 1 } : Sample).symIdx = none := by
  decide

/-- The first and the last reserved code, without and with DONE. -/
theorem test_witness_ReservedCodesDoNothing :
    nextSample (given wBusy { ev := 0x5#4 }) = { ev := 0x5#4 } ∧
    ∀ w ∈ [0x5#4, 0x7#4, 0xD#4, 0xF#4], 5 ≤ (w.extractLsb' 0 3).toNat ∧ w.getLsbD 3 = decide (8 ≤ w.toNat) := by
  decide

theorem test_witness_ResetSetsEveryRegister : ({ rst := true, ev := 0x4#4 } : Sample).rst = true ∧ 2 < wBusy.params.nMax := by
  decide

theorem test_witness_ResetLeavesNoStreamValue :
    leaves .reset wBusy (fun t => decide (53 < t.params.streamLen)) = true := by
  decide

/-- A list too long by one; a list of `N_MAX` pairs; an entry and a channel above a shorter list. -/
theorem test_witness_InitLoadsTheConfiguration :
    wBusy.params.nMax < (List.replicate 4 (⟨50, 0⟩ : CfgEntry)).length ∧
    (List.replicate 3 (⟨50, 0⟩ : CfgEntry)).length ≤ wBusy.params.nMax ∧
    (∀ e ∈ [(⟨2 ^ 32 - 1, 330⟩ : CfgEntry)], e.debMs < 2 ^ wBusy.params.msW ∧ e.repMs < 2 ^ wBusy.params.msW ∧
      msToTicks wBusy.params e.debMs < 2 ^ wBusy.params.tickW ∧
      msToTicks wBusy.params e.repMs < 2 ^ wBusy.params.tickW) ∧
    [(⟨2 ^ 32 - 1, 330⟩ : CfgEntry)][0]? = some ⟨2 ^ 32 - 1, 330⟩ ∧
    [(⟨2 ^ 32 - 1, 330⟩ : CfgEntry)].length ≤ 1 ∧ 1 < wBusy.params.nMax := by
  decide

/-- With 4-bit ticks, 155 ms is the first value that does not fit. -/
theorem test_witness_InitRefusesOutsideItsDomain :
    wIdle.params.nMax < (List.replicate 4 (⟨50, 0⟩ : CfgEntry)).length ∧
    2 ^ 4 ≤ msToTicks { Params.refcfg with tickW := 4 } (155 % 2 ^ 32) ∧
    msToTicks { Params.refcfg with tickW := 4 } (154 % 2 ^ 32) < 2 ^ 4 := by
  decide

/-- 4 ms is below the half tick, 5 ms is the half tick. -/
theorem test_witness_MillisecondsRoundToNearestTick :
    1 ≤ Params.refcfg.tickMs ∧ 2 * 4 < Params.refcfg.tickMs ∧ Params.refcfg.tickMs ≤ 2 * 5 := by
  decide

theorem test_witness_IdleChannelPoll : 2 < wIdle.nch ∧ wIdle.ch[2]? = some ⟨5, 0, .idle, 0⟩ := by decide

theorem test_witness_TriggeredChannelPoll : 0 < wTriggered.nch ∧ wTriggered.ch[0]? = some ⟨5, 0, .triggered, 0⟩ := by decide

theorem test_witness_ActiveChannelPoll : 1 < wActive.nch ∧ wActive.ch[1]? = some ⟨5, 33, .active, 5⟩ := by decide

/-- A channel above `nch`, and one whose intervals are compared. -/
theorem test_witness_PollingTouchesOnlyChannels :
    ({ wActive with nch := 1 } : State).nch ≤ 1 ∧ wActive.ch[1]? = some ⟨5, 33, .active, 5⟩ ∧
    leaves (.bsvc 38 0b010) wActive (fun t => decide (t.ch[1]? = some ⟨5, 33, .active, 38⟩)) = true := by
  decide

/-- A poll after which channel 1 is the least Active one, and one after which none is. -/
theorem test_witness_LowestActiveChannelSuppresses :
    wActive.nch ≤ wActive.params.nMax ∧
    leaves (.bsvc 38 0b010) wActive (fun t => decide (leastActive wActive.nch t.ch 1)) = true ∧
    leaves (.bsvc 38 0) wActive (fun t => decide (∀ k < wActive.nch, (t.ch[k]?).map Channel.state ≠ some .active)) = true := by
  decide

theorem test_witness_AtMostOneTriggerSurvives : wIdle.Inv := inv_wIdle

theorem test_witness_NoChannelsMeansNoTriggers : State.reset.nch = 0 := rfl

theorem test_witness_ElapsedTimeSurvivesTheWrap : 0xFFFFFFFF < 2 ^ 32 := by decide

theorem test_witness_HeldButtonTriggersOnSchedule :
    wIdle.Inv ∧ wIdle.allIdle ∧ 1 < wIdle.nch ∧ wIdle.ch[1]? = some ⟨5, 33, .idle, 0⟩ :=
  ⟨inv_wIdle, by decide, by decide, by decide⟩

/-- Channel 0 without a debounce interval. -/
def wNoDebounce : State := { wIdle with ch := [⟨0, 0, .idle, 0⟩, Channel.blank, Channel.blank] }

/-- Two polls, the button pressed at both. -/
def twoPolls : List (Nat × Nat) := [(7, 1), (8, 1)]

/-- The state after the two polls. -/
def polledTwice : Option State :=
  match Sys2Proof.core.run twoPolls.length ({ wNoDebounce with inputs := twoPolls.map fun q => pollSample q.1 q.2 } : State) with
  | .next t => some t
  | .fault _ => none
  | .refused _ => none

/-- Two polls confirm a press where the debounce interval is 0. -/
theorem test_witness_TriggerNeedsAHeldWindow :
    wNoDebounce.Inv ∧ 0 < wNoDebounce.nch ∧ wNoDebounce.ch[0]? = some ⟨0, 0, .idle, 0⟩ ∧ 0 < twoPolls.length ∧
    (polledTwice.bind fun t => t.out.trigOut) = some 1 ∧ Nat.testBit 1 0 = true :=
  ⟨⟨by decide, by decide, by decide, by decide, by decide, by decide, by decide, by decide, by decide, by decide,
    fun h => (by cases h), fun h => (by cases h)⟩, by decide, rfl, by decide, by decide, by decide⟩

/-- A command whose counter is at `MAX_COUNTER`, one at the sentinel, and the first index that is no command. -/
theorem test_witness_EncodingWritesTheClosedForm :
    wIdle.Inv ∧ ({ wIdle with ctr := [-1, 3, 0] } : State).Inv ∧ wIdle.params.base[1]? = some 0x0F00#16 ∧
    ({ wIdle with ctr := [-1, 3, 0] } : State).ctr[1]? = some 3 ∧ wIdle.ctr[1]? = some (-1) ∧ wIdle.params.nMax ≤ 3 :=
  ⟨inv_wIdle, ⟨by decide, by decide, by decide, by decide, by decide, by decide, by decide, by decide, by decide,
    by decide, fun h => (by cases h), fun h => (by cases h)⟩, by decide, by decide, by decide, by decide⟩

theorem test_witness_CounterCyclesThroughItsRange :
    2 < wBusy.params.nMax ∧ wBusy.ctr[2]? = some (-1) ∧ 2 < wBusy.params.maxCounter := by
  decide

theorem test_witness_SuccessivePayloadsDiffer : 3 ≤ 3 ∧ 0 ≤ 3 ∧ 3 < 2 ^ 16 := by decide

theorem test_witness_StreamDeterminesPayload : Params.refcfg.wf := test_wf_refcfg

theorem test_witness_BusySequencerDropsTriggers : wBusy.txState = .busy := rfl

theorem test_witness_IdleSequencerWithoutTrigger :
    wIdle.txState = .idle ∧ ∀ i < wIdle.params.nMax, Nat.testBit 0b1000 i = false := by
  decide

theorem test_witness_IdleSequencerStartsLowestTrigger :
    wIdle.txState = .idle ∧ 2 < wIdle.params.nMax ∧ Nat.testBit 0b100 2 = true ∧ ∀ i < 2, Nat.testBit 0b100 i = false := by
  decide

theorem test_witness_DoneReturnsToIdle :
    nextSample (given wBusy { ev := 0x8#4 }) = { ev := 0x8#4 } ∧ ({ ev := 0x8#4 } : Sample).rst = false ∧
    ({ ev := 0x8#4 } : Sample).symIdx = none := by
  decide

theorem test_witness_DoneIsIdempotent : wIdle.Inv ∧ wIdle.txState = .idle := ⟨inv_wIdle, rfl⟩

theorem test_witness_PollIsConditioningThenSequencing :
    ({ ev := 0x4#4, now := 5, btn := 1 } : Sample).rst = false ∧ ({ ev := 0x4#4, now := 5, btn := 1 } : Sample).ev = 0x4#4 := by
  decide

theorem test_witness_PollWhileBusyOnlyConditions : wBusy.txState = .busy := rfl

/-- A poll that starts command 1. -/
theorem test_witness_PollStartsAtMostTheLowestActive :
    wIdle.Inv ∧ wActive.Inv ∧ wActive.out.started = none ∧
    leaves (.poll 38 0b010) wActive (fun t => decide (t.out.started = some 1)) = true :=
  ⟨inv_wIdle, ⟨by decide, by decide, by decide, by decide, by decide, by decide, by decide, by decide, by decide,
    by decide, fun h => (by cases h), fun h => (by cases h)⟩, rfl, by decide⟩

theorem test_witness_QuiescentPollChangesOnlyTicks : wIdle.Inv ∧ wIdle.quiescent = true := ⟨inv_wIdle, by decide⟩

theorem test_witness_EveryOperationInItsDomainCompletes :
    wIdle.params.wf ∧ Instr.wf wIdle.params (.init [⟨50, 330⟩, ⟨0, 0⟩, ⟨50, 0⟩]) = true ∧
    Instr.wf wIdle.params (.enc 2) = true :=
  ⟨test_wf_refcfg, by decide, by decide⟩

/-- NOP is an operation the table names for no element; a BSVC moves a channel and keeps the intervals, and a RESET from a
full buffer leaves the last entry without a value. -/
theorem test_witness_OnlyNamedOperationsWriteAnElement :
    exec .nop wBusy = .next wBusy ∧ Instr.nop ≠ .reset ∧ Instr.nop ≠ .done ∧ (∀ cfg, Instr.nop ≠ .init cfg) ∧
    (∀ n b, Instr.nop ≠ .bsvc n b) ∧ (∀ n b, Instr.nop ≠ .poll n b) ∧ (∀ j, Instr.nop ≠ .enc j) ∧
    (∀ m, Instr.nop ≠ .tsvc m) ∧ streamGet wBusy.stream 53 = some ⟨200, 5000⟩ ∧
    leaves (.bsvc 38 0b010) wActive (fun t => decide (t.ch ≠ wActive.ch)) = true ∧
    leaves .reset wBusy (fun t => decide (streamGet t.stream 53 = none)) = true :=
  ⟨rfl, fun h => (by cases h), fun h => (by cases h), fun _ h => (by cases h), fun _ _ h => (by cases h),
    fun _ _ h => (by cases h), fun _ h => (by cases h), fun _ h => (by cases h), by decide, by decide, by decide⟩

/-- A step that starts, and one that finds the sequencer Busy. -/
theorem test_witness_NoStartBeforeCompletion :
    steps wIdle { ev := 0x3#4, trigIn := 1 } (fun t => decide (t.out.started = some 0)) = true ∧
    wBusy.txState = .busy ∧
    steps wBusy { ev := 0x3#4, trigIn := 1 } (fun t => decide (t.out.started = none)) = true ∧
    ({ ev := 0x3#4, trigIn := 1 } : Sample).rst = false ∧ (0x3#4).getLsbD 3 = false := by
  decide

/-- Counter 0 at the boundary value 0. -/
theorem test_witness_SentCounterNeverReturnsToSentinel :
    steps wBusy { ev := 0xB#4, trigIn := 1 } (fun _ => true) = true ∧ wBusy.ctr[0]? = some 0 := by
  decide

theorem test_witness_StepKeepsTheInvariants :
    (given wBusy { ev := 0xB#4, trigIn := 0b010 }).Inv ∧ steps wBusy { ev := 0xB#4, trigIn := 0b010 } (fun _ => true) = true :=
  ⟨inv_given inv_wBusy _, by decide⟩

theorem test_witness_ResetMeetsTheInvariants : Params.refcfg.wf := test_wf_refcfg

/-- The contract kept by a completion, by a read and by a start. -/
theorem test_witness_SystemStepKeepsTheContract :
    (nextOf (systemStep (given wBusy { ev := 0x8#4 }))).isSome = true ∧
    (nextOf (systemStep (given wBusy { symIdx := some 0 }))).isSome = true ∧
    ((nextOf (systemStep (given wIdle { ev := 0x3#4, trigIn := 1 }))).bind fun t => t.out.started) = some 0 := by
  decide

/-- A start, and a RESET with nothing pending or with the transmitter. -/
theorem test_witness_PendingExactlyWhileBusy :
    (given wIdle { ev := 0x3#4, trigIn := 1 }).Inv ∧ wIdle.txPending = wIdle.busy ∧ wBusy.txPending = wBusy.busy ∧
    (nextOf (systemStep (given wIdle { ev := 0x3#4, trigIn := 1 }))).isSome = true ∧
    (nextOf (systemStep (given wBusy { rst := true, rstTx := true }))).isSome = true :=
  ⟨inv_given inv_wIdle _, by decide, by decide, by decide, by decide⟩

theorem test_witness_CounterFitsItsRegister :
    Params.refcfg.wf ∧ (-1 : Int) ≤ -1 ∧ (3 : Int) ≤ Params.refcfg.maxCounter := by
  decide

theorem test_witness_ByteLayoutIsLittleEndian :
    1 < dutyBytes Params.refcfg ∧ 1 < periodBytes Params.refcfg ∧ Memory.wf wBusy.stream := by
  decide

end Sys2Proof.Tests
end

section
/-! Elapsed time (R15, R105): the model's subtraction of words is the difference of integers modulo `2^w`, and so the time
passed since `last` comes back whether or not the tick wrapped in between. -/

namespace Sys2Proof.Machine

/-- The borrow `2^w` that the subtraction of words adds vanishes modulo `2^w`. -/
theorem natCast_subMod (w a b : Nat) : (subMod w a b : Int) = ((a : Int) - b) % 2 ^ w := by
  have hb : b % 2 ^ w ≤ 2 ^ w := (Nat.mod_lt b (Nat.two_pow_pos w)).le
  calc (subMod w a b : Int)
      = (2 ^ w - (b : Int) % 2 ^ w + (a : Int) % 2 ^ w) % 2 ^ w := by
        simp [subMod, BitVec.toNat_sub, Nat.cast_sub hb]
    _ = ((a : Int) % 2 ^ w - (b : Int) % 2 ^ w + 2 ^ w) % 2 ^ w := by ring_nf
    _ = ((a : Int) - b) % 2 ^ w := by rw [Int.add_emod_right, ← Int.sub_emod]

/-- Subtracting `last` from a tick that has wrapped leaves the time passed, as far as `w` bits hold it. -/
theorem subMod_add_mod (w last e : Nat) : subMod w ((last + e) % 2 ^ w) last = e % 2 ^ w := by
  have h : (subMod w ((last + e) % 2 ^ w) last : Int) = (e : Int) % 2 ^ w := by
    simp [natCast_subMod, Int.emod_sub_emod]
  exact_mod_cast h

/-- Settles O23: the elapsed time fits `w` bits, so its remainder modulo `2^w` is itself. -/
theorem elapsedTimeSurvivesTheWrap : Obligations.ElapsedTimeSurvivesTheWrap := by
  intro w last e he
  have elapsed : subMod w ((last + e) % 2 ^ w) last = e := by
    rw [subMod_add_mod, Nat.mod_eq_of_lt he]
  exact ⟨elapsed, fun now => natCast_subMod w now last⟩

end Sys2Proof.Machine
end

section
/-! The encoder's buffer in closed form (R128 to R131): what each loop of ENC leaves at an index, and so the whole stream. -/

namespace Sys2Proof.Machine

theorem writeCopies_succ (m : Memory) (msg : List Symbol) (n : Nat) :
    writeCopies m msg (n + 1) = writeMessage (writeCopies m msg n) (18 * n) msg := by
  simp [writeCopies, List.range_succ]

theorem holdGaps_succ (p : Params) (m : Memory) (n : Nat) :
    holdGaps p m (n + 1) = streamPut (holdGaps p m n) (18 * n + 17) ⟨p.dutyMax, p.ifg.period⟩ := by
  simp [holdGaps, List.range_succ]

/-- After `n` copies the first `18 * n` entries repeat the message and the others are untouched (R129). -/
theorem streamGet_writeCopies (m : Memory) {msg : List Symbol} (hmsg : msg.length = 18) (n i : Nat) :
    streamGet (writeCopies m msg n) i = if i < 18 * n then msg[i % 18]? else streamGet m i := by
  induction n with
  | zero => simp [writeCopies]
  | succ n ih =>
    rw [writeCopies_succ, streamGet_writeMessage, ih, hmsg]
    by_cases inCopy : 18 * n ≤ i ∧ i < 18 * n + 18
    · have offset : i % 18 = i - 18 * n := by omega
      rw [if_pos inCopy, if_pos (by omega), offset]
    · rw [if_neg inCopy]
      exact if_congr (by omega) rfl rfl

/-- The adjustment rewrites the last entry of each of the first `n` copies and nothing else (R130). -/
theorem streamGet_holdGaps (p : Params) (m : Memory) (n i : Nat) :
    streamGet (holdGaps p m n) i =
      if i % 18 = 17 ∧ i / 18 < n then some ⟨p.dutyMax, p.ifg.period⟩ else streamGet m i := by
  induction n with
  | zero => simp [holdGaps]
  | succ n ih =>
    rw [holdGaps_succ, streamGet_streamPut, ih]
    by_cases isGap : i = 18 * n + 17
    · rw [if_pos isGap, if_pos (by omega)]
    · rw [if_neg isGap]
      exact if_congr (by omega) rfl rfl

/-- The symbols of one message by index (R84, R128). -/
theorem message_getElem? (p : Params) (pay : Payload) {r : Nat} (hr : r < 18) :
    (message p pay)[r]? =
      some (if r = 0 then p.sof else if r ≤ 16 then bitSymbol p pay (16 - r) else p.ifg) := by
  rcases r with _ | b
  · rfl
  · by_cases hb : b < 16
    · simp [message, List.getElem?_append, hb, Nat.succ_le_of_lt hb]
    · obtain rfl : b = 16 := by omega
      simp [message]

/-- ENC's writes leave the closed form inside the buffer and nothing else anywhere (R131). -/
theorem streamGet_writeStream {p : Params} (hr : 1 ≤ p.repeatCount) (pay : Payload) (m : Memory) (i : Nat) :
    streamGet (writeStream p pay m) i =
      if i < p.streamLen then some (streamSymbol p pay i) else streamGet m i := by
  rw [writeStream, streamGet_holdGaps, streamGet_writeCopies m (by simp), message_getElem? p pay (by omega),
    streamLen_eq]
  by_cases inside : i < 18 * p.repeatCount
  · by_cases held : i % 18 = 17 ∧ i / 18 < p.repeatCount - 1
    · simp [inside, held, streamSymbol, show i / 18 + 1 < p.repeatCount by omega]
    · by_cases bits : i % 18 ≤ 16
      · simp [inside, held, bits, streamSymbol, bitSymbol]
      · have lastCopy : ¬ i / 18 + 1 < p.repeatCount := by omega
        simp [inside, held, bits, lastCopy, streamSymbol]
  · rw [if_neg (by omega), if_neg inside, if_neg inside]

theorem mem_streamOf {p : Params} {pay : Payload} {e : Nat × Symbol} :
    e ∈ streamOf p pay ↔ e.1 < p.streamLen ∧ e.2 = streamSymbol p pay e.1 := by
  obtain ⟨k, y⟩ := e
  simp [streamOf, eq_comm]

theorem streamOf_wf (p : Params) (pay : Payload) : Memory.wf (streamOf p pay) :=
  List.pairwise_map.mpr List.pairwise_lt_range

theorem streamGet_streamOf (p : Params) (pay : Payload) (i : Nat) :
    streamGet (streamOf p pay) i = if i < p.streamLen then some (streamSymbol p pay i) else none := by
  by_cases hi : i < p.streamLen
  · rw [if_pos hi]
    exact streamGet_of_mem (streamOf_wf p pay) (mem_streamOf.mpr ⟨hi, rfl⟩)
  · rw [if_neg hi, Option.eq_none_iff_forall_ne_some]
    exact fun y hy => hi (mem_streamOf.mp (mem_of_streamGet hy)).1

/-- Over a canonical buffer that holds nothing outside `STREAM_LEN`, ENC's writes leave exactly the payload's stream (R131). -/
theorem writeStream_eq_streamOf {p : Params} (hr : 1 ≤ p.repeatCount) (pay : Payload) {m : Memory}
    (hm : Memory.wf m) (inside : ∀ e ∈ m, e.1 < p.streamLen) : writeStream p pay m = streamOf p pay := by
  refine Memory.ext_of_wf (writeStream_wf p pay hm) (streamOf_wf p pay) fun k => ?_
  rw [streamGet_writeStream hr, streamGet_streamOf]
  by_cases hk : k < p.streamLen
  · rw [if_pos hk, if_pos hk]
  · rw [if_neg hk, if_neg hk, Option.eq_none_iff_forall_ne_some]
    exact fun y hy => hk (inside _ (mem_of_streamGet hy))

/-- Every symbol of a stream fits its widths (R12, R53). -/
theorem streamSymbol_fits {p : Params} (hp : p.wf) (pay : Payload) (k : Nat) :
    p.symbolFits (streamSymbol p pay k) := by
  obtain ⟨-, -, sof, zero, one, ifg⟩ := hp
  have held : p.symbolFits ⟨p.dutyMax, p.ifg.period⟩ := ⟨Nat.sub_one_lt (Nat.two_pow_pos _).ne', ifg.2⟩
  unfold streamSymbol
  split_ifs <;> assumption

end Sys2Proof.Machine
end

section
/-! What the operations and the step can do, said once: the inversions of INIT, ENC, `step` and `systemStep`, and what TSVC
leaves unchanged. -/

namespace Sys2Proof.Machine

/-- INIT goes on only with a list that converts and is no longer than `N_MAX`; it then loads it (R100, R102). -/
theorem exec_init_eq_next {cfg : List CfgEntry} {s t : State} (h : exec (.init cfg) s = .next t) :
    ∃ cs, cfg.length ≤ s.params.nMax ∧ channelsOfCfg s.params cfg = some cs ∧
      t = s.setConfig cfg.length (cs ++ List.replicate (s.params.nMax - cfg.length) Channel.blank) := by
  change execInit cfg s = _ at h
  unfold execInit at h
  split at h
  · cases h
  · split at h
    · rename_i tooLong _ cs hcs
      cases h
      exact ⟨cs, not_lt.mp tooLong, hcs, rfl⟩
    · cases h

/-- ENC goes on only with the index of a command; it then encodes it (R125). -/
theorem exec_enc_eq_next {j : Nat} {s t : State} (h : exec (.enc j) s = .next t) :
    j < s.params.nMax ∧ t = encodeCommand j s := by
  change execEnc j s = _ at h
  unfold execEnc at h
  split at h
  · rename_i hj
    cases h
    exact ⟨hj, rfl⟩
  · cases h

/-- What TSVC never writes (R145). -/
@[simp] theorem tsvc_frame (trig : Nat) (s : State) :
    (tsvc trig s).params = s.params ∧ (tsvc trig s).nch = s.nch ∧ (tsvc trig s).ch = s.ch ∧
      (tsvc trig s).inputs = s.inputs := by
  rcases tsvc_cases trig s with ⟨same, -⟩ | ⟨j, -, -, start⟩
  · simp [same]
  · simp [start]

@[simp] theorem encodeCommand_ctr (j : Nat) (s : State) :
    (encodeCommand j s).ctr = s.ctr.set j (nextCounter s.params.maxCounter (counterOf s j)) := rfl

/-- The state in which the operation of the field `op` starts: the sample presented, the completion taken if there is one
(R155, R168). -/
def State.opStart (x : Sample) (s : State) : State :=
  if EventWord.d x.ev then (s.dropSample.present x).takeCompletion else s.dropSample.present x

section
variable (x : Sample) (s : State)

@[simp] theorem State.opStart_ctr : (s.opStart x).ctr = s.ctr := by unfold State.opStart; split <;> rfl

theorem State.opStart_txPending (hrst : x.rst = false) :
    (s.opStart x).txPending = (s.txPending && !EventWord.d x.ev) := by
  unfold State.opStart
  split <;> simp [hrst]

theorem State.opStart_busy : (s.opStart x).busy = (s.busy && !EventWord.d x.ev) := by
  unfold State.opStart State.busy
  split <;> simp [*]

/-- Under `rst` a step runs RESET; without it, the operation of the field `op` behind the completion (R73, R168). -/
theorem runOps_decode : runOps (decode x) (s.dropSample.present x) =
    if x.rst then .next (s.dropSample.present x).resetCore else exec (decodeOp x) (s.opStart x) := by
  unfold State.opStart
  rcases decode_cases x with ⟨hr, h⟩ | ⟨hr, hd, h⟩ | ⟨hr, hd, nothing, h⟩ | ⟨hr, hd, -, h⟩
  · rw [h, if_pos hr, runOps_singleton]; rfl
  · simp [h, hr, hd, runOps_singleton]
  · simp [h, hr, hd, nothing, runOps_done]; rfl
  · simp [h, hr, hd, runOps_done, runOps_singleton]

end

/-- What a step can do: RESET under `rst`, else the operation of the field `op`; the read port only adds its symbol. -/
theorem step_cases {s t : State} (h : step s = .next t) :
    ∃ y u, t = u.setOut { u.out with sym := y } ∧
      (((nextSample s).rst = true ∧ u = (s.dropSample.present (nextSample s)).resetCore) ∨
        ((nextSample s).rst = false ∧ exec (decodeOp (nextSample s)) (s.opStart (nextSample s)) = .next u)) := by
  obtain ⟨y, u, -, hu, ht⟩ := step_eq_next h
  rw [runOps_decode] at hu
  refine ⟨y, u, ht, ?_⟩
  split at hu
  · rename_i hr
    cases hu
    exact .inl ⟨hr, rfl⟩
  · rename_i hr
    exact .inr ⟨by simpa using hr, hu⟩

/-- No code of the field `op` is RESET, DONE or ENC (R71, R74). -/
theorem decodeOp_ne (x : Sample) : decodeOp x ≠ .reset ∧ decodeOp x ≠ .done ∧ ∀ j, decodeOp x ≠ .enc j := by
  rcases decodeOp_cases x with h | h | h | h | h | h | h | h <;> simp [h]

/-- The system-level step goes on only where the sample and the start keep the contract. -/
theorem systemStep_eq_next {s t : State} (h : systemStep s = .next t) :
    sampleBreach (nextSample s) s = none ∧ step s = .next t ∧ startBreach (nextSample s) s t = false := by
  unfold systemStep at h
  split at h
  · cases h
  · rename_i kept
    split at h
    · rename_i u hu
      split at h
      · cases h
      · rename_i noStart
        cases h
        exact ⟨kept, hu, by simpa using noStart⟩
    · cases h
    · cases h

/-- A sample that keeps the contract completes and reads only what is pending (R41, R58, R172). -/
theorem pending_of_no_sampleBreach {x : Sample} {s : State} (h : sampleBreach x s = none) :
    (EventWord.d x.ev = true → s.txPending = true) ∧ (x.symIdx ≠ none → s.txPending = true) := by
  cases hp : s.txPending
  · simp only [sampleBreach, hp] at h
    split_ifs at h
    simp_all
  · simp

end Sys2Proof.Machine
end

section
/-! The invariants of R43: each update of the state keeps them, so every operation does, so every step does. -/

namespace Sys2Proof.Machine

/-- A channel's registers fit `TICK_W` bits: what `State.Inv` asks of every channel (R22, R23, R25). -/
abbrev Channel.fits (p : Params) (c : Channel) : Prop :=
  c.debounceInterval < 2 ^ p.tickW ∧ c.repeatInterval < 2 ^ p.tickW ∧ c.last < 2 ^ p.tickW

theorem Channel.blank_fits (p : Params) : Channel.blank.fits p :=
  ⟨Nat.two_pow_pos _, Nat.two_pow_pos _, Nat.two_pow_pos _⟩

theorem evalChannel_fits {p : Params} {now : Nat} (hnow : now < 2 ^ p.tickW) (pressed : Bool) {c : Channel}
    (hc : c.fits p) : (evalChannel p now pressed c).1.fits p := by
  obtain ⟨debounce, repeats⟩ := evalChannel_intervals p now pressed c
  obtain ⟨hd, hr, hl⟩ := hc
  refine ⟨debounce.trans_lt hd, repeats.trans_lt hr, ?_⟩
  rcases evalChannel_last p now pressed c with last | last
  · exact last.trans_lt hl
  · exact last.trans_lt hnow

theorem bsvcChannels_fit {p : Params} {nch now btn : Nat} {chs : List Channel} (hnow : now < 2 ^ p.tickW)
    (hchs : ∀ c ∈ chs, c.fits p) : ∀ c ∈ bsvcChannels p nch now btn chs, c.fits p := by
  intro c hc
  obtain ⟨i, hi⟩ := List.mem_iff_getElem?.mp hc
  rw [bsvcChannels_getElem?, Option.map_eq_some_iff] at hi
  obtain ⟨old, hold, rfl⟩ := hi
  have fits := hchs old (List.mem_of_getElem? hold)
  split
  · exact evalChannel_fits hnow _ fits
  · exact fits

/-- A poll leaves the channels above `nch` as they are (R21). -/
theorem bsvcChannels_drop (p : Params) (nch now btn : Nat) (chs : List Channel) :
    (bsvcChannels p nch now btn chs).drop nch = chs.drop nch := by
  refine List.ext_getElem? fun i => ?_
  simp [bsvcChannels_getElem?]

theorem channelsOfCfg_fit {p : Params} {cfg : List CfgEntry} {cs : List Channel}
    (h : channelsOfCfg p cfg = some cs) : ∀ c ∈ cs, c.fits p := by
  rw [channelsOfCfg_eq_some] at h
  induction h with
  | nil => simp
  | cons hc _ ih =>
    obtain ⟨d, r, hd, hr, rfl⟩ := channelOfCfg_eq_some.mp hc
    exact List.forall_mem_cons.mpr
      ⟨⟨(intervalOf_eq_some.mp hd).2, (intervalOf_eq_some.mp hr).2, Nat.two_pow_pos _⟩, ih⟩

section
variable {s : State}

/-- The result ports are no register (log 4). -/
theorem setOut_keeps_inv (h : s.Inv) (o : Outputs) : (s.setOut o).Inv := { h with }

theorem takeCompletion_keeps_inv (h : s.Inv) : s.takeCompletion.Inv :=
  { h with out_level := rfl, live := nofun, pending := nofun }

/-- RESET restores the invariants from any state with legal parameters. -/
theorem resetCore_inv (hp : s.params.wf) : s.resetCore.Inv where
  params_wf := hp
  nch_le := Nat.zero_le _
  ch_length := List.length_replicate
  ctr_length := List.length_replicate
  ch_fit c hc := List.eq_of_mem_replicate hc ▸ Channel.blank_fits _
  unconfigured c hc := List.eq_of_mem_replicate hc
  ctr_range c hc := by
    rw [List.eq_of_mem_replicate hc]
    omega
  out_level := rfl
  stream_wf := List.Pairwise.nil
  stream_fit := nofun
  live := nofun
  pending := nofun

theorem init_keeps_inv (h : s.Inv) {cfg : List CfgEntry} {cs : List Channel}
    (hlen : cfg.length ≤ s.params.nMax) (hcs : channelsOfCfg s.params cfg = some cs) :
    (s.setConfig cfg.length (cs ++ List.replicate (s.params.nMax - cfg.length) Channel.blank)).Inv :=
  have sameLength : cfg.length = cs.length := (channelsOfCfg_eq_some.mp hcs).length_eq
  { h with
    nch_le := hlen
    ch_length := by
      simp
      omega
    ch_fit := fun c hc => by
      rcases List.mem_append.mp hc with configured | blank
      · exact channelsOfCfg_fit hcs c configured
      · exact List.eq_of_mem_replicate blank ▸ Channel.blank_fits _
    unconfigured := fun c hc => by
      rw [State.setConfig_ch, State.setConfig_nch, sameLength, List.drop_left] at hc
      exact List.eq_of_mem_replicate hc }

theorem bsvc_keeps_inv (h : s.Inv) (now btn : Nat) : (bsvc now btn s).1.Inv :=
  { h with
    ch_length := by simp [h.ch_length]
    ch_fit := bsvcChannels_fit (sampleTick_lt _ _) h.ch_fit
    unconfigured := fun c hc => by
      rw [bsvc_ch, bsvc_nch, bsvcChannels_drop] at hc
      exact h.unconfigured c hc }

theorem counterOf_encodeCommand {j : Nat} (hj : j < s.ctr.length) :
    counterOf (encodeCommand j s) j = nextCounter s.params.maxCounter (counterOf s j) := by
  simp [counterOf, hj]

/-- ENC leaves the complete stream of the payload its command then has (R131). -/
theorem encodeCommand_stream (h : s.Inv) {j : Nat} (hj : j < s.params.nMax) :
    (encodeCommand j s).stream =
      streamOf s.params (payloadOf (baseOf s.params j) (counterOf (encodeCommand j s) j)) := by
  obtain ⟨⟨-, -, -, -, -, -, repeats, -⟩, -⟩ := h.params_wf
  rw [counterOf_encodeCommand (h.ctr_length ▸ hj)]
  exact writeStream_eq_streamOf repeats _ h.stream_wf fun e he => (h.stream_fit e he).1

/-- After ENC the buffer holds a command's last stream, whatever it held before (R43 item 5). -/
theorem encodeCommand_live (h : s.Inv) {j : Nat} (hj : j < s.params.nMax) :
    0 ≤ counterOf (encodeCommand j s) j ∧ (encodeCommand j s).stream =
      streamOf s.params (payloadOf (baseOf s.params j) (counterOf (encodeCommand j s) j)) :=
  ⟨counterOf_encodeCommand (h.ctr_length ▸ hj) ▸ (nextCounter_range _ _).1, encodeCommand_stream h hj⟩

theorem encodeCommand_keeps_inv (h : s.Inv) {j : Nat} (hj : j < s.params.nMax) : (encodeCommand j s).Inv :=
  { h with
    ctr_length := by simp [h.ctr_length]
    ctr_range := fun c hc => by
      rcases List.mem_or_eq_of_mem_set hc with old | rfl
      · exact h.ctr_range c old
      · obtain ⟨sent, legal⟩ := nextCounter_range s.params.maxCounter (counterOf s j)
        exact ⟨by omega, legal⟩
    stream_wf := writeStream_wf _ _ h.stream_wf
    stream_fit := fun e he => by
      rw [encodeCommand_stream h hj, mem_streamOf] at he
      obtain ⟨inside, symbol⟩ := he
      exact ⟨inside, symbol ▸ streamSymbol_fits h.params_wf _ _⟩
    live := fun _ => ⟨j, hj, encodeCommand_live h hj⟩ }

theorem tsvc_keeps_inv (h : s.Inv) (trig : Nat) : (tsvc trig s).Inv := by
  rcases tsvc_cases trig s with ⟨same, -⟩ | ⟨j, -, lowest, start⟩
  · rwa [same]
  · have hj := ((lsbIndex_eq_some _ _ _).mp lowest).1
    rw [start]
    exact { encodeCommand_keeps_inv h hj with
      out_level := rfl
      live := fun _ => ⟨j, hj, encodeCommand_live h hj⟩
      pending := fun _ => rfl }

/-- Every operation keeps the invariants, a direct ENC included (R43). -/
theorem exec_keeps_inv {i : Instr} {t : State} (h : s.Inv) (ht : exec i s = .next t) : t.Inv := by
  cases i with
  | nop | reservedOp5 | reservedOp6 | reservedOp7 => cases ht; exact h
  | init cfg =>
    obtain ⟨cs, hlen, hcs, rfl⟩ := exec_init_eq_next ht
    exact init_keeps_inv h hlen hcs
  | bsvc now btn => cases ht; exact setOut_keeps_inv (bsvc_keeps_inv h now btn) _
  | tsvc trig => cases ht; exact setOut_keeps_inv (tsvc_keeps_inv h trig) _
  | poll now btn => cases ht; exact setOut_keeps_inv (tsvc_keeps_inv (bsvc_keeps_inv h now btn) _) _
  | done => cases ht; exact takeCompletion_keeps_inv h
  | reset => cases ht; exact resetCore_inv h.params_wf
  | enc j =>
    obtain ⟨hj, rfl⟩ := exec_enc_eq_next ht
    exact encodeCommand_keeps_inv h hj

/-- Without `rst` the transmitter's flag falls only in a step whose DONE ends Busy, so the operation of `op` starts in the
invariants (R155, R168). -/
theorem opStart_keeps_inv (h : s.Inv) {x : Sample} (hrst : x.rst = false) : (s.opStart x).Inv := by
  unfold State.opStart
  split
  · exact { h with out_level := rfl, live := nofun, pending := nofun }
  · rename_i hd
    exact { h with pending := fun busy => by simp [h.pending busy, hd, hrst] }

end

/-- Settles O45: RESET restores the invariants; without it the operation of `op` starts in them and keeps them. -/
theorem stepKeepsTheInvariants : Obligations.StepKeepsTheInvariants := by
  intro s t h hstep
  obtain ⟨y, u, rfl, ⟨-, rfl⟩ | ⟨hrst, hu⟩⟩ := step_cases hstep
  · exact setOut_keeps_inv (resetCore_inv (s := s.dropSample.present _) h.params_wf) _
  · exact setOut_keeps_inv (exec_keeps_inv (opStart_keeps_inv h hrst) hu) _

/-- Settles O46: the state after reset is one that RESET leaves. -/
theorem resetMeetsTheInvariants : Obligations.ResetMeetsTheInvariants :=
  have afterReset : ∀ p : Params, p.wf → (State.resetOf p).Inv := fun p hp =>
    resetCore_inv (s := State.resetOf p) hp
  ⟨afterReset, afterReset _ (by decide)⟩

end Sys2Proof.Machine
end

section
/-! Who writes what (R20), the sent counters (R29) and the contract with the transmitter (R41). -/

namespace Sys2Proof.Machine

/-- Settles O42, operation by operation: each is a composition of named updates, and those it does not use keep the element. -/
theorem onlyNamedOperationsWriteAnElement : Obligations.OnlyNamedOperationsWriteAnElement := by
  intro i s t h
  cases i with
  | nop | reservedOp5 | reservedOp6 | reservedOp7 => cases h; simp [noOperation]
  | init cfg =>
    obtain ⟨cs, -, -, rfl⟩ := exec_init_eq_next h
    simp
  | bsvc now btn => cases h; simp [bsvcChannels_intervals]
  | tsvc trig => cases h; simp
  | poll now btn => cases h; simp [bsvcChannels_intervals]
  | done => cases h; simp
  | reset => cases h; simp [streamGet]
  | enc j =>
    obtain ⟨-, rfl⟩ := exec_enc_eq_next h
    simp

/-- The counters only advance: TSVC keeps them, or advances the one of the command it starts (R126, R149). -/
theorem tsvc_ctr (trig : Nat) (s : State) : (tsvc trig s).ctr = s.ctr ∨
    ∃ k, (tsvc trig s).ctr = s.ctr.set k (nextCounter s.params.maxCounter (counterOf s k)) := by
  rcases tsvc_cases trig s with ⟨same, -⟩ | ⟨k, -, -, start⟩
  · exact .inl (by rw [same])
  · exact .inr ⟨k, by rw [start, startTransmission_ctr, encodeCommand_ctr]⟩

/-- Every operation but RESET keeps the counters or advances one of them (R20, R29). -/
theorem exec_ctr {i : Instr} {s t : State} (h : exec i s = .next t) (hi : i ≠ .reset) : t.ctr = s.ctr ∨
    ∃ k, t.ctr = s.ctr.set k (nextCounter s.params.maxCounter (counterOf s k)) := by
  cases i with
  | nop | bsvc | done | reservedOp5 | reservedOp6 | reservedOp7 => cases h; exact .inl rfl
  | init cfg =>
    obtain ⟨cs, -, -, rfl⟩ := exec_init_eq_next h
    exact .inl rfl
  | tsvc trig => cases h; exact tsvc_ctr trig s
  | poll now btn => cases h; exact tsvc_ctr _ (bsvc now btn s).1
  | reset => exact absurd rfl hi
  | enc j =>
    obtain ⟨-, rfl⟩ := exec_enc_eq_next h
    exact .inr ⟨j, rfl⟩

/-- Settles O44: the advance of a counter is never negative. -/
theorem sentCounterNeverReturnsToSentinel : Obligations.SentCounterNeverReturnsToSentinel := by
  intro s t j c hstep hrst hj hc
  obtain ⟨y, u, rfl, ⟨hr, -⟩ | ⟨-, hu⟩⟩ := step_cases hstep
  · simp [hrst] at hr
  · have bound : j < s.ctr.length := (List.getElem?_eq_some_iff.mp hj).1
    rcases exec_ctr hu (decodeOp_ne _).1 with same | ⟨k, advanced⟩
    · exact ⟨c, by simpa [same] using hj, hc⟩
    · rw [State.setOut_ctr, advanced, State.opStart_ctr]
      by_cases hk : k = j
      · subst hk
        exact ⟨_, List.getElem?_set_self bound, (nextCounter_range _ _).1⟩
      · exact ⟨c, by rwa [List.getElem?_set_ne hk], hc⟩

/-- Settles O47: the checks of `sampleBreach` and `startBreach`; a RESET, which may reset the transmitter, starts nothing. -/
theorem systemStepKeepsTheContract : Obligations.SystemStepKeepsTheContract := by
  intro s t h
  obtain ⟨kept, hstep, noBreach⟩ := systemStep_eq_next h
  obtain ⟨completes, reads⟩ := pending_of_no_sampleBreach kept
  refine ⟨hstep, completes, reads, fun j started => ?_⟩
  obtain ⟨y, u, rfl, ⟨-, rfl⟩ | ⟨hrst, -⟩⟩ := step_cases hstep
  · simp at started
  · change u.out.started = some j at started
    have free : s.txPending = true → EventWord.d (nextSample s).ev = true := by
      simpa [startBreach, State.txStart, started, hrst] using noBreach
    cases hp : s.txPending
    · exact .inl rfl
    · exact .inr (free hp)

theorem tsvc_keeps_pending_eq_busy {s : State} (h : s.txPending = s.busy) (trig : Nat) :
    (tsvc trig s).txPending = (tsvc trig s).busy := by
  rcases tsvc_cases trig s with ⟨same, -⟩ | ⟨j, -, -, start⟩
  · rwa [same]
  · rw [start]
    rfl

/-- The operations a sample's field `op` can select keep `tx_pending` equal to Busy (R41, R149). -/
theorem exec_keeps_pending_eq_busy {x : Sample} {s t : State} (ht : exec (decodeOp x) s = .next t)
    (h : s.txPending = s.busy) : t.txPending = t.busy := by
  obtain ⟨notReset, notDone, notEnc⟩ := decodeOp_ne x
  generalize decodeOp x = i at ht notReset notDone notEnc
  cases i with
  | nop | bsvc | reservedOp5 | reservedOp6 | reservedOp7 => cases ht; exact h
  | init cfg =>
    obtain ⟨cs, -, -, rfl⟩ := exec_init_eq_next ht
    exact h
  | tsvc trig => cases ht; exact tsvc_keeps_pending_eq_busy h trig
  | poll now btn => cases ht; exact tsvc_keeps_pending_eq_busy (s := (bsvc now btn s).1) h _
  | done => exact absurd rfl notDone
  | reset => exact absurd rfl notReset
  | enc j => exact absurd rfl (notEnc j)

/-- Settles O48: RESET ends both, a completion ends both, and an operation of `op` begins both. -/
theorem pendingExactlyWhileBusy : Obligations.PendingExactlyWhileBusy := by
  intro s t _ agree h together
  obtain ⟨-, hstep, -⟩ := systemStep_eq_next h
  obtain ⟨y, u, rfl, ⟨hrst, rfl⟩ | ⟨hrst, hu⟩⟩ := step_cases hstep
  · rcases together hrst with hTx | hIdle
    · simp [State.busy, hrst, hTx]
    · simp [State.busy, hIdle]
  · change u.txPending = u.busy
    refine exec_keeps_pending_eq_busy hu ?_
    rw [State.opStart_txPending _ _ hrst, State.opStart_busy, agree]

end Sys2Proof.Machine
end

section
/-! Views of the state: the counter's register (R30), the buffer after RESET (R33) and the status outputs (R34). -/

namespace Sys2Proof.Machine

theorem counterCode_neg_one (p : Params) : counterCode p (-1) = BitVec.allOnes p.ctrW := by
  rw [counterCode, BitVec.ofInt_neg, ← BitVec.neg_one_eq_allOnes]
  rfl

/-- Settles O50: R12 gives `CTR_W` bits a signed range that reaches from below -1 to `MAX_COUNTER`. -/
theorem counterFitsItsRegister : Obligations.CounterFitsItsRegister := by
  intro p c hp low high
  obtain ⟨⟨-, -, -, width, maxFits, -⟩, -⟩ := hp
  have maxFits : (p.maxCounter : Int) < 2 ^ (p.ctrW - 1) := by exact_mod_cast maxFits
  exact ⟨BitVec.toInt_ofInt_eq_self width (by omega) (by omega), counterCode_neg_one p⟩

/-- A read inside the buffer of an entry without a value is refused by name (R52, U3). -/
theorem streamRead_unwritten {s : State} {k : Nat} (inside : k < s.params.streamLen)
    (noValue : streamGet s.stream k = none) : streamRead s k = .error .streamUnwritten := by
  simp [streamRead, inside, noValue]

/-- Settles O11: the buffer after RESET lists no entry (log 5). -/
theorem resetLeavesNoStreamValue : Obligations.ResetLeavesNoStreamValue := fun s =>
  ⟨s.resetCore, rfl, fun _ => ⟨rfl, fun inside => streamRead_unwritten inside rfl⟩⟩

theorem State.busy_iff (s : State) : s.busy = true ↔ s.txState = .busy := beq_iff_eq

theorem State.anyActive_iff (s : State) :
    s.anyActive = true ↔ ∃ i c, i < s.nch ∧ s.ch[i]? = some c ∧ c.state ≠ .idle := by
  rw [State.anyActive, anyActiveOf_eq_true]
  constructor
  · rintro ⟨c, hc, pressed⟩
    obtain ⟨i, hi, rfl⟩ := List.mem_take_iff_getElem.mp hc
    exact ⟨i, _, by omega, List.getElem?_eq_getElem (by omega), pressed⟩
  · rintro ⟨i, c, configured, hi, pressed⟩
    obtain ⟨inside, rfl⟩ := List.getElem?_eq_some_iff.mp hi
    exact ⟨_, List.mem_take_iff_getElem.mpr ⟨i, by omega, rfl⟩, pressed⟩

/-- Settles O49; after reset no channel is configured and the sequencer is Idle. -/
theorem statusOutputsFollowTheState : Obligations.StatusOutputsFollowTheState :=
  ⟨fun _ => ⟨rfl, rfl, rfl⟩, fun s => ⟨s.anyActive_iff, s.busy_iff, rfl⟩⟩

end Sys2Proof.Machine
end

section
/-! The stream read port (R52): what a read answers by index and entry, and what the step makes of each answer. -/

namespace Sys2Proof.Machine

/-- A read at or above `STREAM_LEN` is refused by name (R52, U16). -/
theorem streamRead_outside {s : State} {k : Nat} (outside : s.params.streamLen ≤ k) :
    streamRead s k = .error .streamIndexOutside :=
  if_neg outside.not_gt

/-- A read inside the buffer of an entry with a value answers the entry (R52). -/
theorem streamRead_entry {s : State} {k : Nat} {y : Symbol} (inside : k < s.params.streamLen)
    (value : streamGet s.stream k = some y) : streamRead s k = .ok y := by
  simp [streamRead, inside, value]

/-- The read port passes on what the read of the driven index answers. -/
theorem readPort_driven {x : Sample} {k : Nat} (driven : x.symIdx = some k) (s : State) :
    readPort x s = (streamRead s k).map some := by
  unfold readPort
  rw [driven]
  cases h : streamRead s k <;> simp [h, Except.map]

/-- A refused read refuses the whole step, whatever operations it carries (log 14). -/
theorem step_of_read_refused {s : State} {k : Nat} {r : Refusal} (driven : (nextSample s).symIdx = some k)
    (refused : streamRead s k = .error r) : step s = .refused r := by
  have port : readPort (nextSample s) s.dropSample = .error r := by
    rw [readPort_driven driven, show streamRead s.dropSample k = .error r from refused]
    rfl
  unfold step machineStep sampleStep
  rw [port]

/-- A step that goes on shows what the read answered in the state before its operations (log 10). -/
theorem out_sym_of_read {s t : State} {k : Nat} {y : Symbol} (driven : (nextSample s).symIdx = some k)
    (answer : streamRead s k = .ok y) (h : step s = .next t) : t.out.sym = some y := by
  obtain ⟨shown, u, port, -, rfl⟩ := step_eq_next h
  rw [readPort_driven driven, answer] at port
  cases port
  rfl

/-- Settles O7: the three answers of the read, each with what the step makes of it. -/
theorem streamReadPortShowsTheEntry : Obligations.StreamReadPortShowsTheEntry := fun _ _ driven =>
  ⟨fun outside => step_of_read_refused driven (streamRead_outside outside),
    fun inside noValue => step_of_read_refused driven (streamRead_unwritten inside noValue),
    fun _ _ inside value h => out_sym_of_read driven (streamRead_entry inside value) h⟩

end Sys2Proof.Machine
end

section
/-! The byte layout of R54: a field's bytes by place, the addresses an entry takes, and entries one behind the other. -/

namespace Sys2Proof.Machine

/-- Byte `i` of a field lies at `a + i` and holds the digit of weight `256 ^ i` (R54). -/
theorem littleEndian_eq_map (a v n : Nat) :
    littleEndian a v n = (List.range n).map fun i => (a + i, BitVec.ofNat 8 (v / 256 ^ i)) := by
  induction n generalizing a v with
  | zero => rfl
  | succ n ih =>
    simp [littleEndian, ih, List.range_succ_eq_map, Nat.div_div_eq_div_mul, Nat.pow_succ', Nat.add_assoc,
      Nat.add_comm 1]

@[simp] theorem littleEndian_length (a v n : Nat) : (littleEndian a v n).length = n := by
  simp [littleEndian_eq_map]

theorem littleEndian_getElem? (a v : Nat) {n i : Nat} (hi : i < n) :
    (littleEndian a v n)[i]? = some (a + i, BitVec.ofNat 8 (v / 256 ^ i)) := by
  simp [littleEndian_eq_map, hi]

theorem littleEndian_addresses (a v n : Nat) : (littleEndian a v n).map Prod.fst = List.range' a n := by
  simp [littleEndian_eq_map, List.range'_eq_map_range, Function.comp_def]

/-- The bytes an entry takes: `DB + PB` (R54). -/
def entrySize (p : Params) : Nat := dutyBytes p + periodBytes p

/-- Entry `k` takes the addresses from `k * (DB + PB)`, without a gap between duty and period (R54). -/
theorem entryBytes_addresses (p : Params) (k : Nat) (y : Symbol) :
    (entryBytes p k y).map Prod.fst = List.range' (k * entrySize p) (entrySize p) := by
  rw [entryBytes, List.map_append, littleEndian_addresses, littleEndian_addresses, List.range'_append_1]
  rfl

theorem entryBytes_rising (p : Params) (k : Nat) (y : Symbol) :
    (entryBytes p k y).Pairwise fun a b => a.1 < b.1 := by
  rw [← List.pairwise_map, entryBytes_addresses]
  exact List.pairwise_lt_range'

theorem address_of_mem_entryBytes {p : Params} {k : Nat} {y : Symbol} {b : Host.Cell}
    (hb : b ∈ entryBytes p k y) : k * entrySize p ≤ b.1 ∧ b.1 < (k + 1) * entrySize p := by
  have address := List.mem_map_of_mem (f := Prod.fst) hb
  rwa [entryBytes_addresses, List.mem_range'_1, ← Nat.succ_mul] at address

/-- The bytes of an entry end before those of any later entry begin. -/
theorem entryBytes_lt {p : Params} {k k' : Nat} (hk : k < k') {y y' : Symbol} {a b : Host.Cell}
    (ha : a ∈ entryBytes p k y) (hb : b ∈ entryBytes p k' y') : a.1 < b.1 :=
  calc a.1 < (k + 1) * entrySize p := (address_of_mem_entryBytes ha).2
    _ ≤ k' * entrySize p := Nat.mul_le_mul_right _ hk
    _ ≤ b.1 := (address_of_mem_entryBytes hb).1

/-- A canonical buffer gives rising addresses: inside each entry, and from entry to entry (R54). -/
theorem byteLayout_rising (p : Params) {m : Memory} (hm : Memory.wf m) :
    (byteLayout p m).Pairwise fun a b => a.1 < b.1 :=
  List.pairwise_flatMap.mpr
    ⟨fun e _ => entryBytes_rising p e.1 e.2, hm.imp fun hk _ ha _ hb => entryBytes_lt hk ha hb⟩

theorem entryBytes_duty (p : Params) (k : Nat) (y : Symbol) {n : Nat} (hn : n < dutyBytes p) :
    (entryBytes p k y)[n]? =
      some (k * (dutyBytes p + periodBytes p) + n, BitVec.ofNat 8 (y.duty / 256 ^ n)) := by
  rw [entryBytes, List.getElem?_append_left (by simpa using hn), littleEndian_getElem? _ _ hn]

theorem entryBytes_period (p : Params) (k : Nat) (y : Symbol) {n : Nat} (hn : n < periodBytes p) :
    (entryBytes p k y)[dutyBytes p + n]? =
      some (k * (dutyBytes p + periodBytes p) + dutyBytes p + n, BitVec.ofNat 8 (y.period / 256 ^ n)) := by
  rw [entryBytes, List.getElem?_append_right (by simp), littleEndian_length, Nat.add_sub_cancel_left,
    littleEndian_getElem? _ _ hn]

/-- Settles O51: the duty is the lower part of the entry, the period the upper one. -/
theorem byteLayoutIsLittleEndian : Obligations.ByteLayoutIsLittleEndian := fun p k y =>
  ⟨fun _ hn => entryBytes_duty p k y hn, fun _ hn => entryBytes_period p k y hn,
    fun _ hm => byteLayout_rising p hm⟩

end Sys2Proof.Machine
end

section
/-! The decoder and the encoder (R70 to R75, R86): what a sample's event word and pin say of its operations, and back. -/

namespace Sys2Proof

open Sys2Proof.Machine

/-- A word is its field `op` and its strobe bit (R70). -/
theorem EventWord.ext_op_d {v w : EventWord} (hop : EventWord.op v = EventWord.op w)
    (hd : EventWord.d v = EventWord.d w) : v = w := by
  refine BitVec.eq_of_getLsbD_eq fun i hi => ?_
  by_cases inOp : i < 3
  · have bit := congrArg (BitVec.getLsbD · i) hop
    simpa [EventWord.op, inOp] using bit
  · obtain rfl : i = 3 := by omega
    exact hd

section
variable {x y : Sample}

theorem decode_of_rst (hrst : x.rst = true) : decode x = [.reset] := if_pos hrst

theorem decode_of_no_done (hrst : x.rst = false) (hd : EventWord.d x.ev = false) : decode x = [decodeOp x] := by
  simp [decode, hrst, hd]

/-- Behind the strobe the code 000 is "nothing" (R86). -/
theorem decode_of_done_alone (hrst : x.rst = false) (hd : EventWord.d x.ev = true) (nothing : decodeOp x = .nop) :
    decode x = [.done] := by
  simp [decode, hrst, hd, nothing]

theorem decode_of_done (hrst : x.rst = false) (hd : EventWord.d x.ev = true) (something : decodeOp x ≠ .nop) :
    decode x = [.done, decodeOp x] := by
  simp [decode, hrst, hd]

/-- Settles O1: the strobe bit of each word says whether DONE comes first, its code 000 to 111 names the operation. -/
theorem eventWordsDecodeAsTabulated : Obligations.EventWordsDecodeAsTabulated := by
  intro x
  refine ⟨decode_of_rst, fun hrst => ?_⟩
  have alone : ∀ {w i}, EventWord.d w = false → decodeOp { x with ev := w } = i → x.ev = w → decode x = [i] := by
    rintro _ _ hd rfl rfl
    exact decode_of_no_done hrst hd
  have doneAlone : ∀ {w}, EventWord.d w = true → decodeOp { x with ev := w } = .nop → x.ev = w →
      decode x = [.done] := by
    rintro _ hd nothing rfl
    exact decode_of_done_alone hrst hd nothing
  have behind : ∀ {w i}, EventWord.d w = true → decodeOp { x with ev := w } = i → i ≠ .nop → x.ev = w →
      decode x = [.done, i] := by
    rintro _ _ hd rfl something rfl
    exact decode_of_done hrst hd something
  refine ⟨alone rfl ?_, alone rfl ?_, alone rfl ?_, alone rfl ?_, alone rfl ?_, alone rfl ?_, alone rfl ?_, alone rfl ?_,
    doneAlone rfl ?_, behind rfl ?_ nofun, behind rfl ?_ nofun, behind rfl ?_ nofun, behind rfl ?_ nofun,
    behind rfl ?_ nofun, behind rfl ?_ nofun, behind rfl ?_ nofun⟩
  all_goals simp [decodeOp, EventWord.op]

/-- The row of the operation that a code selects has this code as its match (R71, R75). -/
theorem decodeOp_row (x : Sample) : (decodeOp x).row = some ((EventWord.op x.ev).setWidth 4, 0x7#4) := by
  have codes : ∀ c : BitVec 3, c = 0#3 ∨ c = 1#3 ∨ c = 2#3 ∨ c = 3#3 ∨ c = 4#3 ∨ c = 5#3 ∨ c = 6#3 ∨ c = 7#3 := by
    decide
  unfold decodeOp
  rcases codes (EventWord.op x.ev) with h | h | h | h | h | h | h | h <;> rw [h] <;> rfl

/-- Different codes select different operations. -/
theorem op_eq_of_decodeOp_eq (h : decodeOp y = decodeOp x) : EventWord.op y.ev = EventWord.op x.ev := by
  have rows := congrArg Instr.row h
  rw [decodeOp_row, decodeOp_row] at rows
  simpa using congrArg (BitVec.setWidth 3) (Prod.mk.inj (Option.some.inj rows)).1

/-- Every code but 000 selects an operation that has a code. -/
theorem hasOp_decodeOp (h : decodeOp x ≠ .nop) : (decodeOp x).hasOp = true := by
  rcases decodeOp_cases x with h' | h' | h' | h' | h' | h' | h' | h'
  · exact absurd h' h
  all_goals rw [h']; rfl

theorem reset_mem_decode : Instr.reset ∈ decode x ↔ x.rst = true := by
  obtain ⟨notReset, -⟩ := decodeOp_ne x
  rcases decode_cases x with ⟨hr, h⟩ | ⟨hr, -, h⟩ | ⟨hr, -, -, h⟩ | ⟨hr, -, -, h⟩ <;> simp [h, hr, notReset.symm]

/-- Without `rst` the strobe bit is what puts DONE among a step's operations (R70, R86). -/
theorem done_mem_decode (hrst : x.rst = false) : Instr.done ∈ decode x ↔ EventWord.d x.ev = true := by
  obtain ⟨-, notDone, -⟩ := decodeOp_ne x
  rcases decode_cases x with ⟨hr, -⟩ | ⟨-, hd, h⟩ | ⟨-, hd, -, h⟩ | ⟨-, hd, -, h⟩
  · simp [hrst] at hr
  all_goals simp [h, hd, notDone.symm]

/-- Without `rst` the operation of the field `op` is the last of a step's, or NOP behind DONE alone (R86). -/
theorem decodeOp_eq_of_decode (hrst : x.rst = false) :
    decodeOp x = if decode x = [.done] then .nop else (decode x).getLastD .nop := by
  obtain ⟨-, notDone, -⟩ := decodeOp_ne x
  rcases decode_cases x with ⟨hr, -⟩ | ⟨-, -, h⟩ | ⟨-, -, nothing, h⟩ | ⟨-, -, -, h⟩
  · simp [hrst] at hr
  · simp [h, notDone]
  · simp [h, nothing]
  · simp [h]

/-- Samples with the same operations have the same pin. -/
theorem rst_eq_of_decode_eq (h : decode y = decode x) : y.rst = x.rst := by
  rw [Bool.eq_iff_iff, ← reset_mem_decode, ← reset_mem_decode, h]

/-- Samples without `rst` that have the same operations have the same event word. -/
theorem ev_eq_of_decode_eq (hrst : x.rst = false) (h : decode y = decode x) : y.ev = x.ev := by
  have hrst' : y.rst = false := (rst_eq_of_decode_eq h).trans hrst
  refine EventWord.ext_op_d (op_eq_of_decodeOp_eq ?_) ?_
  · rw [decodeOp_eq_of_decode hrst, decodeOp_eq_of_decode hrst', h]
  · rw [Bool.eq_iff_iff, ← done_mem_decode hrst, ← done_mem_decode hrst', h]

end

section
variable {i : Instr} {x : Sample}

/-- Only ENC cannot be requested (R74). -/
theorem exists_encode (h : ∀ j, i ≠ .enc j) : ∃ x, encode i = some x := by
  cases i with
  | enc j => exact absurd rfl (h j)
  | _ => exact ⟨_, rfl⟩

theorem exists_encode_of_hasOp (hop : i.hasOp = true) : ∃ x, encode i = some x :=
  exists_encode fun j hj => by simp [hj, Instr.hasOp] at hop

/-- The sample that requests an operation decodes to it alone. -/
theorem decode_encode (h : encode i = some x) : decode x = [i] := by
  cases i with
  | enc j => cases h
  | reset => cases h; exact decode_of_rst rfl
  | done => cases h; exact decode_of_done_alone rfl rfl rfl
  | _ => cases h; exact decode_of_no_done rfl (by simp [EventWord.d])

/-- An operation that has a code is requested by this code, without `rst`. -/
theorem decodeOp_encode (h : encode i = some x) (hop : i.hasOp = true) : x.rst = false ∧ decodeOp x = i := by
  cases i with
  | nop | done | reset | enc => cases hop
  | _ => cases h; exact ⟨rfl, rfl⟩

/-- The strobe is no part of the field `op` (R70). -/
theorem decodeOp_withDone (x : Sample) : decodeOp x.withDone = decodeOp x := by
  have same : ∀ w : EventWord, EventWord.op (w ||| 0x8#4) = EventWord.op w := by decide
  simp [decodeOp, Sample.withDone, same]

/-- The sample that requests an operation, with the strobe set, decodes to DONE and then it (R70, R86). -/
theorem decode_withDone (h : encode i = some x) (hop : i.hasOp = true) : decode x.withDone = [.done, i] := by
  obtain ⟨hrst, rfl⟩ := decodeOp_encode h hop
  have something : decodeOp x ≠ .nop := fun nothing => by simp [nothing, Instr.hasOp] at hop
  have strobe : EventWord.d x.withDone.ev = true := by simp [EventWord.d, Sample.withDone]
  rw [← decodeOp_withDone] at something ⊢
  exact decode_of_done hrst strobe something

/-- Operands in their domain fit the ports (R40, R76). -/
theorem encode_wf {p : Params} (h : encode i = some x) (hi : i.wf p = true) : x.wf p = true := by
  cases i with
  | enc j => cases h
  | init cfg =>
    cases h
    simp only [Instr.wf, Bool.and_eq_true, List.all_eq_true, decide_eq_true_eq] at hi
    obtain ⟨-, entries⟩ := hi
    simpa [Sample.wf] using fun e he =>
      have ⟨deb, rep, _⟩ := entries e he
      ⟨deb, rep⟩
  | bsvc | tsvc | poll =>
    cases h
    simpa [Instr.wf, Sample.wf] using hi
  | nop | done | reset | reservedOp5 | reservedOp6 | reservedOp7 =>
    cases h
    simp [Sample.wf]

theorem withDone_wf (p : Params) (x : Sample) : x.withDone.wf p = x.wf p := rfl

theorem encodeStep_done (h : encode i = some x) (hop : i.hasOp = true) :
    encodeStep [.done, i] = some x.withDone := by
  simp [encodeStep, hop, h]

/-- The operations of every sample encode, to a sample that decodes to the same operations. -/
theorem exists_encodeStep_decode (x : Sample) : ∃ y, encodeStep (decode x) = some y ∧ decode y = decode x := by
  have alone : ∀ i : Instr, (∀ j, i ≠ .enc j) → ∃ y, encodeStep [i] = some y ∧ decode y = [i] := fun i hi =>
    have ⟨y, hy⟩ := exists_encode hi
    ⟨y, hy, decode_encode hy⟩
  obtain ⟨-, -, notEnc⟩ := decodeOp_ne x
  rcases decode_cases x with ⟨-, h⟩ | ⟨-, -, h⟩ | ⟨-, -, -, h⟩ | ⟨-, -, something, h⟩ <;> rw [h]
  · exact alone .reset nofun
  · exact alone _ notEnc
  · exact alone .done nofun
  · have hop := hasOp_decodeOp something
    obtain ⟨y, hy⟩ := exists_encode_of_hasOp hop
    exact ⟨y.withDone, encodeStep_done hy hop, decode_withDone hy hop⟩

/-- Settles O2: encoding and decoding alone and behind DONE; a sample's operations determine its pin and event word. -/
theorem decodeAndEncodeAgree : Obligations.DecodeAndEncodeAgree := by
  intro p
  refine ⟨fun i hi notEnc => ?_, fun _ => rfl, fun i hi hop => ?_, fun x => ?_⟩
  · obtain ⟨x, hx⟩ := exists_encode notEnc
    exact ⟨x, hx, encode_wf hx hi, decode_encode hx⟩
  · obtain ⟨x, hx⟩ := exists_encode_of_hasOp hop
    exact ⟨x.withDone, encodeStep_done hx hop, (withDone_wf p x).trans (encode_wf hx hi), decode_withDone hx hop⟩
  · obtain ⟨y, hy, same⟩ := exists_encodeStep_decode x
    exact ⟨y, hy, same, rst_eq_of_decode_eq same, fun hrst => ev_eq_of_decode_eq hrst same⟩

end

/-- RUN has a sample for every tick of `a..b`, each the request of a POLL (R88). -/
theorem traceRun_getElem? (p : Params) {a b n : Nat} (btn : Nat) (hn : n < b + 1 - a) :
    (traceRun p a b btn)[n]? = encode (.poll ((a + n) % 2 ^ p.tickW) btn) := by
  simp [traceRun, hn, encode]

/-- Settles O3; HOLD and IDLE are RUN by definition. -/
theorem runExpandsToPolls : Obligations.RunExpandsToPolls := by
  refine ⟨fun p a b btn hab => ?_, fun _ _ _ _ => rfl, fun _ _ _ => rfl⟩
  have ticks : b + 1 - a = b - a + 1 := by omega
  refine ⟨by simp [traceRun, ticks], fun n hn => ?_⟩
  exact ⟨_, traceRun_getElem? p btn (ticks ▸ hn), decode_encode rfl⟩

end Sys2Proof
end

section
/-! What a step makes of the operations its sample decodes to (R86, R168), and the steps that do nothing or only reset
(R72, R73, R75). -/

namespace Sys2Proof.Machine

theorem readPort_idle {x : Sample} (idle : x.symIdx = none) (s : State) : readPort x s = .ok none := by
  simp [readPort, idle]

/-- What the operations of a step give is the step's, but for the symbol on the read port; a refusal is the step's own
(log 14). -/
theorem step_follows_runOps {s : State} {y : Option Symbol} (port : readPort (nextSample s) s = .ok y) :
    (∀ t, runOps (decode (nextSample s)) (s.dropSample.present (nextSample s)) = .next t →
      step s = .next (t.setOut { t.out with sym := y })) ∧
    (∀ r, runOps (decode (nextSample s)) (s.dropSample.present (nextSample s)) = .refused r →
      step s = .refused r) := by
  have port' : readPort (nextSample s) s.dropSample = .ok y := port
  unfold step machineStep sampleStep
  rw [port']
  exact ⟨fun t h => by simp only [h], fun r h => by simp only [h]⟩

theorem step_of_runOps_next {s t : State} (idle : (nextSample s).symIdx = none)
    (h : runOps (decode (nextSample s)) (s.dropSample.present (nextSample s)) = .next t) :
    step s = .next (t.setOut { t.out with sym := none }) :=
  (step_follows_runOps (readPort_idle idle s)).1 t h

/-- Settles O4: the operation starts in the presented state, behind DONE in that state with the completion taken. -/
theorem stepRunsTheDecodedOperations : Obligations.StepRunsTheDecodedOperations := by
  rintro s _ y rfl port
  have follows := step_follows_runOps port
  refine ⟨fun i one => ?_, fun i two => ?_, ?_⟩
  · rw [one, runOps_singleton] at follows
    exact follows
  · rw [two, runOps_done, runOps_singleton] at follows
    exact follows
  · rcases decode_cases (nextSample s) with ⟨-, h⟩ | ⟨-, -, h⟩ | ⟨-, -, -, h⟩ | ⟨-, -, -, h⟩
    · exact .inl ⟨_, h⟩
    · exact .inl ⟨_, h⟩
    · exact .inl ⟨_, h⟩
    · exact .inr ⟨_, h⟩

/-- Settles O5: under `rst` the step is RESET of the presented state. -/
theorem resetPinOverridesEventWord : Obligations.ResetPinOverridesEventWord := by
  rintro s _ rfl hrst idle
  have runs := runOps_decode (nextSample s) s
  rw [if_pos hrst] at runs
  refine ⟨_, step_of_runOps_next idle runs, ?_⟩
  simp only [State.present, hrst]
  rfl

section
variable {x : Sample} {s : State}

/-- Without `rst` and completion an operation starts in the state of before, its sample used up and the ports empty. -/
theorem State.opStart_of_no_done (hrst : x.rst = false) (hd : EventWord.d x.ev = false) :
    s.opStart x = { s with inputs := s.inputs.tail, out := {} } := by
  simp [State.opStart, State.present, State.dropSample, hrst, hd]

/-- Behind a completion the sequencer is Idle as well, and the transmitter has nothing pending (R41, R155). -/
theorem State.opStart_of_done (hd : EventWord.d x.ev = true) :
    s.opStart x = { s with
      inputs := s.inputs.tail, out := {}, txPending := false, txState := .idle, outLevel := false } := by
  simp [State.opStart, State.present, State.dropSample, State.takeCompletion, State.setTxState, State.setOutLevel, hd]

theorem State.opStart_out (x : Sample) (s : State) : (s.opStart x).out = {} := by
  unfold State.opStart
  split <;> rfl

/-- A step whose operation of the field `op` does nothing ends where that operation starts. -/
theorem step_of_no_effect (hrst : (nextSample s).rst = false) (idle : (nextSample s).symIdx = none)
    (noEffect : ∀ t, exec (decodeOp (nextSample s)) t = .next t) : step s = .next (s.opStart (nextSample s)) := by
  have runs := runOps_decode (nextSample s) s
  rw [hrst, if_neg Bool.false_ne_true, noEffect] at runs
  rw [step_of_runOps_next idle runs, State.opStart_out, ← State.opStart_out (nextSample s) s]
  rfl

/-- A reserved code does what NOP does (R75; log 8). -/
theorem exec_decodeOp_of_reserved (reserved : 5 ≤ (EventWord.op x.ev).toNat) (t : State) :
    exec (decodeOp x) t = .next t := by
  unfold decodeOp
  split
  case h_6 | h_7 | h_8 => rfl
  all_goals omega

/-- A reserved code breaks the contract in every state (R75, R172). -/
theorem systemStep_of_reserved (hrst : (nextSample s).rst = false)
    (reserved : 5 ≤ (EventWord.op (nextSample s).ev).toNat) : systemStep s = .refused .reservedOp := by
  simp [systemStep, sampleBreach, reservedRequested, hrst, reserved]

end

/-- Settles O8: the code 000 does nothing, and without the strobe bit the step has no other operation. -/
theorem nopChangesNothing : Obligations.NopChangesNothing := by
  refine ⟨fun _ => rfl, ?_⟩
  rintro s _ rfl hrst word idle
  have noEffect : ∀ t, exec (decodeOp (nextSample s)) t = .next t := by
    simp only [decodeOp, word]
    exact fun _ => rfl
  rw [step_of_no_effect hrst idle noEffect, State.opStart_of_no_done hrst (by rw [word]; rfl)]

/-- Settles O9: a reserved code does nothing, so the step is what its strobe bit says. -/
theorem reservedCodesDoNothing : Obligations.ReservedCodesDoNothing := by
  refine ⟨fun _ => ⟨rfl, rfl, rfl⟩, ?_⟩
  rintro s _ rfl hrst reserved
  refine ⟨systemStep_of_reserved hrst reserved, fun idle => ?_⟩
  rw [step_of_no_effect hrst idle (exec_decodeOp_of_reserved reserved)]
  exact ⟨fun hd => congrArg _ (State.opStart_of_no_done hrst hd), fun hd => congrArg _ (State.opStart_of_done hd)⟩

end Sys2Proof.Machine
end

section
/-! The stream over an empty buffer (R83, R131). -/

namespace Sys2Proof.Machine

/-- Settles O27; with no copy to write ENC writes nothing. -/
theorem streamEntriesByIndex : Obligations.StreamEntriesByIndex := by
  intro p pay k
  rcases Nat.eq_zero_or_pos p.repeatCount with noCopy | copies
  · simp [writeStream, writeCopies, holdGaps, streamGet, streamLen_eq, noCopy]
  · exact streamGet_writeStream copies pay [] k

end Sys2Proof.Machine
end

section
/-! INIT (R100 to R103): the conversion of milliseconds, and what it makes of a list inside and outside its domain. -/

namespace Sys2Proof.Machine

/-- Settles O14: the quotient is the floor of the value plus half a tick, and the floor of 1 acts below half a tick only. -/
theorem millisecondsRoundToNearestTick : Obligations.MillisecondsRoundToNearestTick := by
  intro p ms hT
  have twoTicks : 0 < 2 * p.tickMs := by omega
  refine ⟨?_, fun pos below => ?_, fun pos above => ?_⟩
  · unfold msToTicks
    split <;> omega
  · have floor : (2 * ms + p.tickMs) / (2 * p.tickMs) = 0 := Nat.div_eq_of_lt (by omega)
    simp [msToTicks, pos.ne', floor]
  · have atLeastOne : 1 ≤ (2 * ms + p.tickMs) / (2 * p.tickMs) := (Nat.one_le_div_iff twoTicks).mpr (by omega)
    have count : msToTicks p ms = (2 * ms + p.tickMs) / (2 * p.tickMs) := by
      simp [msToTicks, pos.ne', atLeastOne]
    have lower := Nat.mul_div_le (2 * ms + p.tickMs) (2 * p.tickMs)
    have upper := Nat.lt_mul_div_succ (2 * ms + p.tickMs) twoTicks
    rw [← count, mul_assoc] at lower upper
    exact ⟨lower, upper⟩

section
variable {s : State} {cfg : List CfgEntry}

theorem exec_init_of_too_long (tooLong : s.params.nMax < cfg.length) :
    exec (.init cfg) s = .refused .initTooManyChannels := if_pos tooLong

theorem exec_init_of_converts {cs : List Channel} (short : cfg.length ≤ s.params.nMax)
    (converts : channelsOfCfg s.params cfg = some cs) : exec (.init cfg) s =
      .next (s.setConfig cfg.length (cs ++ List.replicate (s.params.nMax - cfg.length) Channel.blank)) := by
  change execInit cfg s = _
  simp [execInit, not_lt.mpr short, converts]

theorem exec_init_of_no_conversion (short : cfg.length ≤ s.params.nMax)
    (noConversion : channelsOfCfg s.params cfg = none) : exec (.init cfg) s = .refused .initIntervalTooWide := by
  change execInit cfg s = _
  simp [execInit, not_lt.mpr short, noConversion]

end

/-- A pair converts exactly where both its intervals, as the ports carry them, fit `TICK_W` bits (R102 d). -/
theorem channelOfCfg_eq_some_iff_fits {p : Params} {e : CfgEntry} {c : Channel} :
    channelOfCfg p e = some c ↔
      (msToTicks p (sampleMs p e.debMs) < 2 ^ p.tickW ∧ msToTicks p (sampleMs p e.repMs) < 2 ^ p.tickW) ∧
        c = ⟨msToTicks p (sampleMs p e.debMs), msToTicks p (sampleMs p e.repMs), .idle, 0⟩ := by
  simp only [channelOfCfg_eq_some, intervalOf_eq_some]
  constructor
  · rintro ⟨_, _, ⟨rfl, debounceFits⟩, ⟨rfl, repeatFits⟩, rfl⟩
    exact ⟨⟨debounceFits, repeatFits⟩, rfl⟩
  · rintro ⟨⟨debounceFits, repeatFits⟩, rfl⟩
    exact ⟨_, _, ⟨rfl, debounceFits⟩, ⟨rfl, repeatFits⟩, rfl⟩

/-- One pair that does not convert stops the whole list (R102 d). -/
theorem channelsOfCfg_eq_none {p : Params} {cfg : List CfgEntry} {e : CfgEntry} (he : e ∈ cfg)
    (tooWide : 2 ^ p.tickW ≤ msToTicks p (sampleMs p e.debMs) ∨ 2 ^ p.tickW ≤ msToTicks p (sampleMs p e.repMs)) :
    channelsOfCfg p cfg = none := by
  by_contra converts
  obtain ⟨cs, hcs⟩ := Option.ne_none_iff_exists'.mp converts
  obtain ⟨i, inside, rfl⟩ := List.getElem_of_mem he
  have pairs := channelsOfCfg_eq_some.mp hcs
  obtain ⟨⟨debounceFits, repeatFits⟩, -⟩ :=
    channelOfCfg_eq_some_iff_fits.mp (pairs.get inside (pairs.length_eq ▸ inside))
  exact tooWide.elim debounceFits.not_ge repeatFits.not_ge

/-- The registers INIT gives the channel of a pair whose values fit their ports (R100). -/
def configuredChannel (p : Params) (e : CfgEntry) : Channel :=
  ⟨msToTicks p e.debMs, msToTicks p e.repMs, .idle, 0⟩

theorem channelsOfCfg_eq_map {p : Params} {cfg : List CfgEntry}
    (fits : ∀ e ∈ cfg, e.debMs < 2 ^ p.msW ∧ e.repMs < 2 ^ p.msW ∧
      msToTicks p e.debMs < 2 ^ p.tickW ∧ msToTicks p e.repMs < 2 ^ p.tickW) :
    channelsOfCfg p cfg = some (cfg.map (configuredChannel p)) := by
  rw [channelsOfCfg_eq_some, List.forall₂_map_right_iff, List.forall₂_same]
  intro e he
  obtain ⟨debPort, repPort, debounceFits, repeatFits⟩ := fits e he
  have debSampled : sampleMs p e.debMs = e.debMs := Nat.mod_eq_of_lt debPort
  have repSampled : sampleMs p e.repMs = e.repMs := Nat.mod_eq_of_lt repPort
  rw [channelOfCfg_eq_some_iff_fits, debSampled, repSampled]
  exact ⟨⟨debounceFits, repeatFits⟩, rfl⟩

/-- Settles O13. -/
theorem initRefusesOutsideItsDomain : Obligations.InitRefusesOutsideItsDomain := fun _ _ =>
  ⟨exec_init_of_too_long, fun short ⟨_, he, tooWide⟩ =>
    exec_init_of_no_conversion short (channelsOfCfg_eq_none he tooWide)⟩

/-- Settles O12: the channels are those of the pairs, filled up with blank ones, and no configured one is pressed. -/
theorem initLoadsTheConfiguration : Obligations.InitLoadsTheConfiguration := by
  refine ⟨fun x hrst word => (eventWordsDecodeAsTabulated x).2 hrst |>.2.1 word, fun s cfg => exec_init_of_too_long, ?_⟩
  intro s cfg short fits
  refine ⟨_, exec_init_of_converts short (channelsOfCfg_eq_map fits), rfl, by simp; omega, ?_, ?_, ?_⟩
  · intro i e hi
    obtain ⟨inside, rfl⟩ := List.getElem?_eq_some_iff.mp hi
    simp [List.getElem?_append_left, inside, configuredChannel]
  · intro i above below
    have blank : i - cfg.length < s.params.nMax - cfg.length := by omega
    simp [List.getElem?_append_right, above, blank, Channel.blank]
  · rw [← Bool.not_eq_true, State.anyActive, anyActiveOf_eq_true]
    simp [configuredChannel]

end Sys2Proof.Machine
end

section
/-! BSVC on one channel (R106 to R112, R114), and what it leaves unchanged (R104). -/

namespace Sys2Proof.Machine

section
variable (p : Params) (now : Nat) (pressed : Bool) {c : Channel}

/-- The Idle state (R106, R107). -/
theorem evalChannel_of_idle (h : c.state = .idle) : evalChannel p now pressed c =
    ({ c with last := now, state := if pressed then .triggered else .idle }, false) := by
  cases pressed <;> simp [evalChannel, h]

/-- The Triggered state (R108 to R110). -/
theorem evalChannel_of_triggered (h : c.state = .triggered) : evalChannel p now pressed c =
    let confirmed := pressed && decide (c.debounceInterval ≤ subMod p.tickW now c.last)
    (if pressed = false then { c with state := .idle, last := now }
      else if confirmed then { c with state := .active, last := now } else c, confirmed) := by
  cases pressed
  · simp [evalChannel, h]
  · by_cases elapsed : c.debounceInterval ≤ subMod p.tickW now c.last <;> simp [evalChannel, h, elapsed]

/-- The Active state (R111, R112, R114). -/
theorem evalChannel_of_active (h : c.state = .active) : evalChannel p now pressed c =
    let due := pressed && decide (0 < c.repeatInterval) && decide (c.repeatInterval ≤ subMod p.tickW now c.last)
    (if pressed = false then { c with state := .idle, last := now }
      else if due then { c with last := now } else c, due) := by
  cases pressed
  · simp [evalChannel, h]
  · by_cases due : 0 < c.repeatInterval ∧ c.repeatInterval ≤ subMod p.tickW now c.last
    · simp [evalChannel, h, due]
    · have notDue : (decide (0 < c.repeatInterval) &&
          decide (c.repeatInterval ≤ subMod p.tickW now c.last)) = false := by simpa using due
      simp [evalChannel, h, due, notDue]

end

/-- BSVC is the poll of the engine with its two results on the ports (R104, R115). -/
theorem exec_bsvc (now btn : Nat) (s : State) : exec (.bsvc now btn) s = .next ((bsvc now btn s).1.setOut
    { s.out with trigOut := some (bsvc now btn s).2, anyActive := some (bsvc now btn s).1.anyActive }) := rfl

/-- BSVC gives a configured channel the registers and the raw bit of its own poll. -/
theorem exec_bsvc_channel {s : State} (now btn : Nat) {i : Nat} {c : Channel} (configured : i < s.nch)
    (hc : s.ch[i]? = some c) : ∃ t : State, exec (.bsvc now btn) s = .next t ∧
      t.ch[i]? = some (evalChannel s.params (sampleTick s.params now) (btn.testBit i) c).1 ∧
      (bsvcRaw s.params s.nch (sampleTick s.params now) btn s.ch).testBit i =
        (evalChannel s.params (sampleTick s.params now) (btn.testBit i) c).2 := by
  refine ⟨_, exec_bsvc now btn s, ?_, ?_⟩
  · simp [bsvcChannels_getElem?, hc, configured]
  · simp [testBit_bsvcRaw, hc, configured]

/-- Settles O15. -/
theorem idleChannelPoll : Obligations.IdleChannelPoll := by
  intro s now btn i c configured hc idle
  have poll := exec_bsvc_channel now btn configured hc
  rwa [evalChannel_of_idle _ _ _ idle] at poll

/-- Settles O16. -/
theorem triggeredChannelPoll : Obligations.TriggeredChannelPoll := by
  intro s now btn i c configured hc triggered
  have poll := exec_bsvc_channel now btn configured hc
  rwa [evalChannel_of_triggered _ _ _ triggered] at poll

/-- Settles O17. -/
theorem activeChannelPoll : Obligations.ActiveChannelPoll := by
  intro s now btn i c configured hc active
  have poll := exec_bsvc_channel now btn configured hc
  rwa [evalChannel_of_active _ _ _ active] at poll

/-- Settles O18: phase 1 is the only write to a register, and no channel's poll writes an interval. -/
theorem pollingTouchesOnlyChannels : Obligations.PollingTouchesOnlyChannels := by
  intro s now btn
  refine ⟨_, _, _, exec_bsvc now btn s, rfl, by simp, fun i above => ?_, fun i c c' hc hc' => ?_⟩
  · simp [bsvcChannels_getElem?, not_lt.mpr above]
  · rw [State.setOut_ch, bsvc_ch, bsvcChannels_getElem?, hc, Option.map_some, Option.some_inj] at hc'
    subst hc'
    split
    · exact evalChannel_intervals _ _ _ _
    · exact ⟨rfl, rfl⟩

/-- Settles O21: a channel that is not Idle is Triggered or Active. -/
theorem anyActiveSeesTriggeredAndActive : Obligations.AnyActiveSeesTriggeredAndActive := by
  intro s now btn
  have pressed : ∀ c : Channel, c.state ≠ .idle ↔ c.state = .triggered ∨ c.state = .active := by
    intro c
    cases c.state <;> decide
  refine ⟨_, _, exec_bsvc now btn s, rfl, rfl, ?_⟩
  simp only [State.anyActive_iff, pressed]
  rfl

/-- Settles O22: phase 1 visits no channel, so no register changes and no raw bit is set. -/
theorem noChannelsMeansNoTriggers : Obligations.NoChannelsMeansNoTriggers := by
  intro s now btn noChannel
  have same : bsvcChannels s.params s.nch (sampleTick s.params now) btn s.ch = s.ch := by
    refine List.ext_getElem? fun i => ?_
    simp [bsvcChannels_getElem?, noChannel]
  have noRaw : bsvcRaw s.params s.nch (sampleTick s.params now) btn s.ch = 0 := by
    refine Nat.eq_of_testBit_eq fun i => ?_
    simp [testBit_bsvcRaw, noChannel]
  have poll : bsvc now btn s = (s, 0) := by
    have first : firstActive s.nch s.ch = none := by simp [firstActive, noChannel]
    simp only [bsvc, same, noRaw, first, suppress]
    rfl
  simp [exec_bsvc, poll, State.setOut, State.anyActive, anyActiveOf, noChannel]

end Sys2Proof.Machine
end

section
/-! The one trigger of a poll: suppression (R113) leaves at most the bit of the least Active channel (R117). -/

namespace Sys2Proof.Machine

section
variable {now btn : Nat} {s : State}

/-- The channels of a state after the first phase of a poll (R104). -/
abbrev State.polledChannels (now btn : Nat) (s : State) : List Channel :=
  bsvcChannels s.params s.nch (sampleTick s.params now) btn s.ch

/-- The raw trigger bits of the first phase of a poll (R104). -/
abbrev State.polledRaw (now btn : Nat) (s : State) : Nat :=
  bsvcRaw s.params s.nch (sampleTick s.params now) btn s.ch

/-- A raw trigger bit comes from a configured channel that is Active after phase 1 (R109, R111). -/
theorem active_of_raw {i : Nat} (raw : (s.polledRaw now btn).testBit i = true) :
    i < s.nch ∧ ((s.polledChannels now btn)[i]?).map Channel.state = some .active := by
  simp only [testBit_bsvcRaw, Bool.and_eq_true, decide_eq_true_eq] at raw
  obtain ⟨configured, emits⟩ := raw
  cases hc : s.ch[i]? with
  | none => simp [hc] at emits
  | some c =>
    simp only [hc, Option.map_some, Option.getD_some] at emits
    simp [bsvcChannels_getElem?, hc, configured, (evalChannel_emits emits).2]

/-- With channel `k` the least Active one, the raw bits `0..k` survive (R113). -/
theorem testBit_bsvc_of_leastActive (bounded : s.nch ≤ s.params.nMax) {k : Nat}
    (least : leastActive s.nch (s.polledChannels now btn) k) (b : Nat) :
    (bsvc now btn s).2.testBit b = ((s.polledRaw now btn).testBit b && decide (b ≤ k)) := by
  have first : firstActive s.nch (s.polledChannels now btn) = some k := firstActive_eq_some.mpr least
  have kept : (bsvc now btn s).2 = s.polledRaw now btn &&& lowMask s.params.nMax k := by
    simp only [bsvc, first, suppress]
  rw [kept, Nat.testBit_and, testBit_lowMask]
  cases raw : (s.polledRaw now btn).testBit b with
  | false => rfl
  | true => simp [(active_of_raw raw).1.trans_le bounded]

/-- Without an Active channel the raw bits pass (R113). -/
theorem bsvc_snd_of_no_active
    (noActive : ∀ k < s.nch, ((s.polledChannels now btn)[k]?).map Channel.state ≠ some .active) :
    (bsvc now btn s).2 = s.polledRaw now btn := by
  have first : firstActive s.nch (s.polledChannels now btn) = none := firstActive_eq_none.mpr noActive
  simp only [bsvc, first, suppress]

/-- A trigger bit is the raw bit of the least Active channel: a lower raw bit would make its own channel Active (R117). -/
theorem testBit_bsvc (bounded : s.nch ≤ s.params.nMax) (i : Nat) : (bsvc now btn s).2.testBit i = true ↔
    (s.polledRaw now btn).testBit i = true ∧ leastActive s.nch (s.polledChannels now btn) i := by
  cases first : firstActive s.nch (s.polledChannels now btn) with
  | none =>
    have noActive := firstActive_eq_none.mp first
    rw [bsvc_snd_of_no_active noActive]
    refine iff_of_false (fun raw => ?_) (fun ⟨_, configured, active, _⟩ => noActive i configured active)
    exact noActive i (active_of_raw raw).1 (active_of_raw raw).2
  | some k =>
    have least : leastActive s.nch (s.polledChannels now btn) k := firstActive_eq_some.mp first
    rw [testBit_bsvc_of_leastActive bounded least, Bool.and_eq_true, decide_eq_true_eq]
    refine and_congr_right fun raw => ⟨fun notAbove => ?_, fun ⟨_, _, noLower⟩ => ?_⟩
    · have notBelow : ¬ i < k := fun below => least.2.2 i below (active_of_raw raw).2
      rwa [show i = k by omega]
    · exact not_lt.mp fun below => noLower k below least.2.1

/-- The result of a poll is nothing or the single bit of the least Active channel (R35, R117). -/
theorem bsvc_snd_cases (bounded : s.nch ≤ s.params.nMax) : (bsvc now btn s).2 = 0 ∨
    ∃ k, (bsvc now btn s).2 = 2 ^ k ∧ leastActive s.nch (s.polledChannels now btn) k := by
  rcases eq_or_ne (bsvc now btn s).2 0 with zero | nonzero
  · exact .inl zero
  · obtain ⟨k, hk⟩ := Nat.exists_testBit_of_ne_zero nonzero
    have least := ((testBit_bsvc bounded k).mp hk).2
    refine .inr ⟨k, Nat.eq_of_testBit_eq fun i => ?_, least⟩
    rw [Nat.testBit_two_pow, Bool.eq_iff_iff, decide_eq_true_eq]
    refine ⟨fun hi => ?_, fun same => same ▸ hk⟩
    obtain ⟨_, leastToo⟩ := (testBit_bsvc bounded i).mp hi
    exact Option.some_inj.mp ((firstActive_eq_some.mpr least).symm.trans (firstActive_eq_some.mpr leastToo))

/-- So the sequencer finds no trigger, or the only one there is (R15, R161). -/
theorem lsbIndex_bsvc (bounded : s.nch ≤ s.params.nMax) :
    ((bsvc now btn s).2 = 0 ∧ lsbIndex s.params.nMax (bsvc now btn s).2 = none) ∨
    ∃ k, (bsvc now btn s).2 = 2 ^ k ∧ leastActive s.nch (s.polledChannels now btn) k ∧
      lsbIndex s.params.nMax (bsvc now btn s).2 = some k := by
  rcases bsvc_snd_cases bounded with zero | ⟨k, single, least⟩
  · exact .inl ⟨zero, zero ▸ lsbIndex_zero _⟩
  · exact .inr ⟨k, single, least, single ▸ lsbIndex_two_pow _ _ (least.1.trans_le bounded)⟩

end

/-- Settles O19. -/
theorem lowestActiveChannelSuppresses : Obligations.LowestActiveChannelSuppresses := fun s now btn bounded =>
  ⟨_, _, exec_bsvc now btn s, rfl, rfl, fun _ => testBit_bsvc_of_leastActive bounded, bsvc_snd_of_no_active⟩

/-- Settles O20. -/
theorem atMostOneTriggerSurvives : Obligations.AtMostOneTriggerSurvives := fun s now btn inv =>
  ⟨_, _, exec_bsvc now btn s, rfl, bsvc_snd_cases inv.nch_le⟩

/-- Settles O39: the sequencer starts the lowest trigger bit, and the poll gives it no other. -/
theorem pollStartsAtMostTheLowestActive : Obligations.PollStartsAtMostTheLowestActive := by
  intro s now btn inv noStrobe
  refine ⟨_, _, rfl, rfl, ?_⟩
  simp only [State.setOut_out, State.setOut_nch, State.setOut_ch, State.setOut_txState, tsvc_frame, bsvc_nch, bsvc_ch]
  cases before : s.txState with
  | busy =>
    rw [tsvc_of_busy (s := (bsvc now btn s).1) before, bsvc_out, noStrobe]
    exact ⟨iff_of_true rfl (.inl rfl), nofun⟩
  | idle =>
    rcases lsbIndex_bsvc inv.nch_le with ⟨zero, noBit⟩ | ⟨k, single, least, lowest⟩
    · rw [tsvc_of_none (s := (bsvc now btn s).1) noBit, bsvc_out, noStrobe]
      exact ⟨iff_of_true rfl (.inr zero), nofun⟩
    · rw [tsvc_of_some (s := (bsvc now btn s).1) before lowest]
      refine ⟨iff_of_false nofun (by simp [single]), fun j started => ?_⟩
      cases started
      exact ⟨single, least, rfl⟩

end Sys2Proof.Machine
end

section
/-! Runs of polls: a run acts on each channel alone, and its last poll gives the result. -/

namespace Sys2Proof.Machine

/-- A configured channel's registers after a poll `(now, btn)` at its input `i`. -/
def pollChannel (p : Params) (i : Nat) (c : Channel) (q : Nat × Nat) : Channel :=
  (evalChannel p (sampleTick p q.1) (q.2.testBit i) c).1

/-- The registers of channel `i` after polls `(now, btn)` one after the other; `nch` channels are configured. -/
def pollsChannel (p : Params) (nch i : Nat) (polls : List (Nat × Nat)) (c : Channel) : Channel :=
  if i < nch then polls.foldl (pollChannel p i) c else c

@[simp] theorem pollsChannel_nil (p : Params) (nch i : Nat) (c : Channel) : pollsChannel p nch i [] c = c := by
  simp [pollsChannel]

theorem pollsChannel_concat (p : Params) (nch i : Nat) (polls : List (Nat × Nat)) (q : Nat × Nat) (c : Channel) :
    pollsChannel p nch i (polls ++ [q]) c =
      if i < nch then pollChannel p i (pollsChannel p nch i polls c) q else pollsChannel p nch i polls c := by
  unfold pollsChannel
  split <;> simp

/-- `t` is configured as `s`, its channels polled. -/
structure Polled (polls : List (Nat × Nat)) (s t : State) : Prop where
  params : t.params = s.params
  nch : t.nch = s.nch
  channel : ∀ i, t.ch[i]? = (s.ch[i]?).map (pollsChannel s.params s.nch i polls)

/-- A step on a POLL sample polls the engine, whatever the sequencer does with the trigger (R160). -/
theorem step_poll {s : State} {q : Nat × Nat} {rest : List Sample} (queued : s.inputs = pollSample q.1 q.2 :: rest) :
    ∃ t : State, step s = .next t ∧ t.inputs = rest ∧ t.params = s.params ∧ t.nch = s.nch ∧
      t.ch = s.polledChannels q.1 q.2 ∧ t.out.trigOut = some (bsvc q.1 q.2 s).2 := by
  have sample : nextSample s = pollSample q.1 q.2 := by simp [nextSample, queued]
  have runs : runOps (decode (nextSample s)) (s.dropSample.present (nextSample s)) =
      exec (.poll q.1 q.2) (s.dropSample.present (nextSample s)) := by
    rw [sample, decode_encode (x := pollSample q.1 q.2) (i := .poll q.1 q.2) rfl, runOps_singleton]
  refine ⟨_, step_of_runOps_next (by rw [sample]; rfl) (runs.trans rfl), ?_⟩
  simp [queued]
  rfl

/-- A run extended by one step (the host's outcome type is that of `core`, the step's that of the model). -/
theorem core_run_concat {k : Nat} {s u t : State} (runs : Sys2Proof.core.run k s = .next u)
    (hstep : step u = .next t) : Sys2Proof.core.run (k + 1) s = .next t := by
  rw [core_run_succ_last]
  generalize Sys2Proof.core.run k s = o at runs ⊢
  subst runs
  exact hstep

section
variable {s : State} {polls : List (Nat × Nat)} {q : Nat × Nat}

/-- The poll after a run of polls extends the run. -/
theorem Polled.concat {u : State} {rest : List Sample} (h : Polled polls s u)
    (queued : u.inputs = pollSample q.1 q.2 :: rest) :
    ∃ t : State, step u = .next t ∧ t.inputs = rest ∧ Polled (polls ++ [q]) s t ∧
      t.ch = u.polledChannels q.1 q.2 ∧ t.out.trigOut = some (bsvc q.1 q.2 u).2 := by
  obtain ⟨t, hstep, inputs, params, nch, ch, trig⟩ := step_poll queued
  refine ⟨t, hstep, inputs, ⟨params.trans h.params, nch.trans h.nch, fun i => ?_⟩, ch, trig⟩
  rw [ch, bsvcChannels_getElem?, h.channel, h.params, h.nch, Option.map_map]
  congr 1
  funext c
  rw [pollsChannel_concat]
  rfl

theorem Polled.nch_le {t : State} (h : Polled polls s t) (inv : s.Inv) : t.nch ≤ t.params.nMax := by
  rw [h.nch, h.params]
  exact inv.nch_le

/-- The polls at the head of the environment's list all run (R104, R162). -/
theorem run_polls (s : State) (polls : List (Nat × Nat)) (rest : List Sample) :
    ∃ t : State, Sys2Proof.core.run polls.length
        { s with inputs := (polls.map fun q => pollSample q.1 q.2) ++ rest } = .next t ∧
      t.inputs = rest ∧ Polled polls s t := by
  induction polls using List.reverseRecOn generalizing rest with
  | nil => exact ⟨_, rfl, rfl, rfl, rfl, fun i => by cases s.ch[i]? <;> simp⟩
  | append_singleton polls q ih =>
    obtain ⟨u, runs, inputs, polled⟩ := ih (pollSample q.1 q.2 :: rest)
    obtain ⟨t, hstep, inputs, polled, -⟩ := polled.concat inputs
    refine ⟨t, ?_, inputs, polled⟩
    rw [List.length_append, List.map_append, List.append_assoc]
    exact core_run_concat runs hstep

/-- The result of a run of polls is that of its last poll. -/
theorem run_polls_concat (s : State) (polls : List (Nat × Nat)) (q : Nat × Nat) :
    ∃ u t : State, Sys2Proof.core.run (polls ++ [q]).length
        { s with inputs := (polls ++ [q]).map fun q => pollSample q.1 q.2 } = .next t ∧
      Polled polls s u ∧ Polled (polls ++ [q]) s t ∧
      t.ch = u.polledChannels q.1 q.2 ∧ t.out.trigOut = some (bsvc q.1 q.2 u).2 := by
  obtain ⟨u, runs, inputs, polled⟩ := run_polls s polls [pollSample q.1 q.2]
  obtain ⟨t, hstep, -, polled', ch, trig⟩ := polled.concat inputs
  refine ⟨u, t, ?_, polled, polled', ch, trig⟩
  rw [List.length_append, List.map_append]
  exact core_run_concat runs hstep

end

end Sys2Proof.Machine
end

section
/-! No trigger without a button held through its debounce interval (R120): what a run of polls has seen of a channel. -/

namespace Sys2Proof.Machine

/-- Input `i` was pressed at every poll of the run from poll `a` on. -/
def PressedSince (i : Nat) (polls : List (Nat × Nat)) (a : Nat) : Prop :=
  ∀ k q, a ≤ k → polls[k]? = some q → q.2.testBit i = true

/-- Input `i` was pressed from some poll on, and at a later one `debounce` ticks had passed since (R120). -/
def HeldWindow (p : Params) (i debounce : Nat) (polls : List (Nat × Nat)) : Prop :=
  ∃ a b, a < b ∧ b < polls.length ∧ PressedSince i polls a ∧
    ∃ qa qb, polls[a]? = some qa ∧ polls[b]? = some qb ∧ debounce ≤ subMod p.tickW qb.1 qa.1

/-- What the state of channel `i` says of the polls it has seen since it was Idle: Triggered, it has been pressed since the
poll it stores; Active, it has been pressed through its debounce interval. -/
structure TracksPress (p : Params) (i debounce : Nat) (polls : List (Nat × Nat)) (c : Channel) : Prop where
  interval : c.debounceInterval = debounce
  triggered : c.state = .triggered →
    ∃ a qa, PressedSince i polls a ∧ polls[a]? = some qa ∧ c.last = sampleTick p qa.1
  active : c.state = .active → HeldWindow p i debounce polls

section
variable {p : Params} {i debounce : Nat} {polls : List (Nat × Nat)} {q : Nat × Nat} {c : Channel}

theorem PressedSince.concat {a : Nat} (h : PressedSince i polls a) (pressed : q.2.testBit i = true) :
    PressedSince i (polls ++ [q]) a := by
  intro k r later hr
  rcases lt_or_ge k polls.length with old | new
  · rw [List.getElem?_append_left old] at hr
    exact h k r later hr
  · rw [List.getElem?_append_right new] at hr
    rwa [List.mem_singleton.mp (List.mem_of_getElem? hr)]

/-- A poll begins a press at itself. -/
theorem pressedSince_length (pressed : q.2.testBit i = true) : PressedSince i (polls ++ [q]) polls.length :=
  PressedSince.concat (fun k r later hr => by simp [List.getElem?_eq_none later] at hr) pressed

theorem getElem?_concat_of_some {a : Nat} {r : Nat × Nat} (h : polls[a]? = some r) : (polls ++ [q])[a]? = some r := by
  rw [List.getElem?_append_left (List.getElem?_eq_some_iff.mp h).1, h]

theorem HeldWindow.concat (h : HeldWindow p i debounce polls) (pressed : q.2.testBit i = true) :
    HeldWindow p i debounce (polls ++ [q]) := by
  obtain ⟨a, b, hab, hb, since, qa, qb, ha, hb', elapsed⟩ := h
  exact ⟨a, b, hab, by simp; omega, since.concat pressed, qa, qb, getElem?_concat_of_some ha,
    getElem?_concat_of_some hb', elapsed⟩

/-- The subtraction of ticks sees only the bits their port carries (R15, R105). -/
theorem subMod_sampleTick (p : Params) (a b : Nat) :
    subMod p.tickW (sampleTick p a) (sampleTick p b) = subMod p.tickW a b := by
  simp [subMod, sampleTick]

/-- A press confirmed at poll `q` has been seen from the poll the channel stores to `q` (R108). -/
theorem heldWindow_of_confirmed {a : Nat} {qa : Nat × Nat} (since : PressedSince i polls a)
    (ha : polls[a]? = some qa) (pressed : q.2.testBit i = true)
    (elapsed : debounce ≤ subMod p.tickW (sampleTick p q.1) (sampleTick p qa.1)) :
    HeldWindow p i debounce (polls ++ [q]) := by
  rw [subMod_sampleTick] at elapsed
  exact ⟨a, polls.length, (List.getElem?_eq_some_iff.mp ha).1, by simp, since.concat pressed, qa, q,
    getElem?_concat_of_some ha, List.getElem?_concat_length, elapsed⟩

/-- A release ends in Idle from every state (R106, R108, R111). -/
theorem pollChannel_of_released (released : q.2.testBit i = false) : (pollChannel p i c q).state = .idle := by
  rw [pollChannel, released]
  cases hc : c.state with
  | idle => simp [evalChannel_of_idle _ _ _ hc]
  | triggered => simp [evalChannel_of_triggered _ _ _ hc]
  | active => simp [evalChannel_of_active _ _ _ hc]

/-- One more poll: a release forgets the press; otherwise a press begins, is confirmed or goes on (R107 to R112). -/
theorem TracksPress.concat (h : TracksPress p i debounce polls c) :
    TracksPress p i debounce (polls ++ [q]) (pollChannel p i c q) := by
  obtain ⟨interval, triggered, active⟩ := h
  have interval' := (evalChannel_intervals p (sampleTick p q.1) (q.2.testBit i) c).1.trans interval
  cases pressed : q.2.testBit i with
  | false =>
    have released := pollChannel_of_released (p := p) (c := c) pressed
    exact ⟨interval', by simp [released], by simp [released]⟩
  | true =>
    cases hc : c.state with
    | idle =>
      have poll : pollChannel p i c q = { c with last := sampleTick p q.1, state := .triggered } := by
        simp [pollChannel, pressed, evalChannel_of_idle _ _ _ hc]
      rw [poll]
      exact ⟨interval, fun _ => ⟨polls.length, q, pressedSince_length pressed, List.getElem?_concat_length, rfl⟩, nofun⟩
    | triggered =>
      obtain ⟨a, qa, since, ha, last⟩ := triggered hc
      by_cases elapsed : c.debounceInterval ≤ subMod p.tickW (sampleTick p q.1) c.last
      · have poll : pollChannel p i c q = { c with last := sampleTick p q.1, state := .active } := by
          simp [pollChannel, pressed, evalChannel_of_triggered _ _ _ hc, elapsed]
        rw [poll]
        rw [interval, last] at elapsed
        exact ⟨interval, nofun, fun _ => heldWindow_of_confirmed since ha pressed elapsed⟩
      · have poll : pollChannel p i c q = c := by
          simp [pollChannel, pressed, evalChannel_of_triggered _ _ _ hc, elapsed]
        rw [poll]
        exact ⟨interval, fun _ => ⟨a, qa, since.concat pressed, getElem?_concat_of_some ha, last⟩, by simp [hc]⟩
    | active =>
      have stillActive : (pollChannel p i c q).state = .active := by
        simp only [pollChannel, pressed, evalChannel_of_active _ _ _ hc]
        simp only [reduceCtorEq, if_false]
        split <;> exact hc
      exact ⟨interval', by simp [stillActive], fun _ => (active hc).concat pressed⟩

/-- Every run of polls from Idle tracks the press. -/
theorem tracksPress_pollsChannel {nch : Nat} (configured : i < nch) (idle : c.state = .idle)
    (polls : List (Nat × Nat)) : TracksPress p i c.debounceInterval polls (pollsChannel p nch i polls c) := by
  induction polls using List.reverseRecOn with
  | nil => simpa using ⟨rfl, by simp [idle], by simp [idle]⟩
  | append_singleton polls q ih =>
    rw [pollsChannel_concat, if_pos configured]
    exact ih.concat

end

/-- Settles O25: the last poll's bit shows channel `i` Active behind it, and an Active channel has seen its window. -/
theorem triggerNeedsAHeldWindow : Obligations.TriggerNeedsAHeldWindow := by
  intro s t polls i m c inv configured hc idle nonempty runs trig bit
  rcases polls.eq_nil_or_concat' with rfl | ⟨polls, q, rfl⟩
  · cases nonempty
  · obtain ⟨u, t', runs', before, after, ch, trig'⟩ := run_polls_concat s polls q
    obtain rfl : t' = t := by
      have same := runs'.symm.trans runs
      cases same
      rfl
    obtain rfl : (bsvc q.1 q.2 u).2 = m := by simpa [trig'] using trig
    obtain ⟨_, _, active, _⟩ := (testBit_bsvc (before.nch_le inv) i).mp bit
    rw [← ch, after.channel, hc] at active
    exact (tracksPress_pollsChannel configured idle _).active (by simpa using active)

end Sys2Proof.Machine
end

section
/-! The schedule of a held button (R119): the registers of the held channel in closed form, and the other channels Idle. -/

namespace Sys2Proof.Machine

/-- The poll, counted from the one that first sees the button, at which a held channel first triggers (R119). -/
def Channel.firstFire (c : Channel) : Nat := max c.debounceInterval 1

theorem Channel.firstFire_eq (c : Channel) : c.firstFire = max c.debounceInterval 1 := rfl

/-- The schedule of R119 before, at and after the first trigger. -/
theorem firesAt_of_lt {c : Channel} {n : Nat} (h : n < c.firstFire) : firesAt c n = false := by
  rw [Channel.firstFire_eq] at h
  simp [firesAt]
  omega

theorem firesAt_firstFire (c : Channel) : firesAt c c.firstFire = true := by
  simp [firesAt, Channel.firstFire_eq]

theorem firesAt_of_gt {c : Channel} {n : Nat} (h : c.firstFire < n) :
    firesAt c n = (decide (0 < c.repeatInterval) && decide ((n - c.firstFire) % c.repeatInterval = 0)) := by
  rw [Channel.firstFire_eq] at h
  rw [Bool.eq_iff_iff, Bool.and_eq_true, decide_eq_true_eq, decide_eq_true_eq, Channel.firstFire_eq]
  simp [firesAt, h, h.ne', Nat.dvd_iff_mod_eq_zero]

/-- The registers, after `n` polls from tick `t0` with its button held, of a channel that was `c`: Triggered at the first
poll, Active at the poll `firstFire` and since then at its last repeat (R107, R109, R111). Without a repeat interval
`x % 0 = x` makes the first trigger the last. -/
def heldChannel (p : Params) (t0 : Nat) (c : Channel) : Nat → Channel
  | 0 => c
  | n + 1 =>
    if n < c.firstFire then { c with state := .triggered, last := sampleTick p t0 }
    else { c with
      state := .active
      last := sampleTick p (t0 + (n - (n - c.firstFire) % c.repeatInterval)) }

/-- Between two ticks of a run that are less than `2^TICK_W` apart the elapsed time is their number. -/
theorem subMod_of_ticks (p : Params) (t0 : Nat) {x n : Nat} (order : x ≤ n) (near : n - x < 2 ^ p.tickW) :
    subMod p.tickW (sampleTick p (t0 + n)) (sampleTick p (t0 + x)) = n - x := by
  calc subMod p.tickW (sampleTick p (t0 + n)) (sampleTick p (t0 + x))
      = subMod p.tickW ((t0 + x + (n - x)) % 2 ^ p.tickW) (t0 + x) := by
        rw [subMod_sampleTick, show t0 + x + (n - x) = t0 + n by omega]
        simp [subMod]
    _ = n - x := by rw [subMod_add_mod, Nat.mod_eq_of_lt near]

/-- A counter of polls since the last repeat starts again exactly at a multiple of the interval. -/
theorem succ_mod_eq {r : Nat} (pos : 0 < r) (k : Nat) :
    (k + 1) % r = if r ≤ k % r + 1 then 0 else k % r + 1 := by
  have bound := Nat.mod_lt k pos
  rw [← Nat.mod_add_mod]
  split
  · rw [show k % r + 1 = r by omega, Nat.mod_self]
  · exact Nat.mod_eq_of_lt (by omega)

section
variable {p : Params} {c : Channel} (t0 : Nat) {n : Nat}

/-- The first poll sees the press (R107). -/
theorem evalChannel_heldChannel_zero (idle : c.state = .idle) :
    evalChannel p (sampleTick p t0) true (heldChannel p t0 c 0) = (heldChannel p t0 c 1, firesAt c 0) := by
  have positive : 0 < c.firstFire := lt_max_of_lt_right Nat.one_pos
  simp [heldChannel, evalChannel_of_idle _ _ _ idle, positive, firesAt_of_lt positive]

/-- Until `firstFire` the channel waits, and there it is confirmed (R108, R109). -/
theorem evalChannel_heldChannel_of_waiting (width : 1 ≤ p.tickW) (fits : c.debounceInterval < 2 ^ p.tickW)
    (waiting : n < c.firstFire) : evalChannel p (sampleTick p (t0 + (n + 1))) true (heldChannel p t0 c (n + 1)) =
      (heldChannel p t0 c (n + 2), firesAt c (n + 1)) := by
  have first := c.firstFire_eq
  have two : 2 ≤ 2 ^ p.tickW := Nat.le_self_pow (by omega) 2
  have elapsed : subMod p.tickW (sampleTick p (t0 + (n + 1))) (sampleTick p t0) = n + 1 :=
    subMod_of_ticks p t0 (x := 0) (Nat.zero_le _) (by omega)
  rw [heldChannel, if_pos waiting, evalChannel_of_triggered _ _ _ rfl]
  simp only [elapsed, heldChannel]
  rcases Nat.lt_or_ge (n + 1) c.firstFire with still | due
  · have windowOpen : ¬ c.debounceInterval ≤ n + 1 := by omega
    simp [windowOpen, firesAt_of_lt still, still]
  · have now : n + 1 = c.firstFire := by omega
    have windowClosed : c.debounceInterval ≤ c.firstFire := by omega
    simp [windowClosed, now, firesAt_firstFire]

/-- From `firstFire` on the channel repeats when `repeatInterval` polls have passed since its last trigger (R111). -/
theorem evalChannel_heldChannel_of_fired (fits : c.repeatInterval < 2 ^ p.tickW)
    (fired : c.firstFire ≤ n) : evalChannel p (sampleTick p (t0 + (n + 1))) true (heldChannel p t0 c (n + 1)) =
      (heldChannel p t0 c (n + 2), firesAt c (n + 1)) := by
  have later : n + 1 - c.firstFire = n - c.firstFire + 1 := by omega
  rw [heldChannel, if_neg (by omega), evalChannel_of_active _ _ _ rfl, heldChannel, if_neg (by omega),
    firesAt_of_gt (by omega), later]
  rcases Nat.eq_zero_or_pos c.repeatInterval with never | repeats
  · have same : n + 1 - (n - c.firstFire + 1) = n - (n - c.firstFire) := by omega
    simp [never, same]
  · have since := Nat.mod_lt (n - c.firstFire) repeats
    have since' := Nat.mod_le (n - c.firstFire) c.repeatInterval
    have elapsed : subMod p.tickW (sampleTick p (t0 + (n + 1)))
        (sampleTick p (t0 + (n - (n - c.firstFire) % c.repeatInterval))) =
        (n - c.firstFire) % c.repeatInterval + 1 := by
      rw [subMod_of_ticks p t0 (by omega) (by omega)]
      omega
    simp only [elapsed, succ_mod_eq repeats]
    by_cases due : c.repeatInterval ≤ (n - c.firstFire) % c.repeatInterval + 1
    · simp [due, repeats]
    · have same : n + 1 - ((n - c.firstFire) % c.repeatInterval + 1) =
          n - (n - c.firstFire) % c.repeatInterval := by omega
      simp [due, same]

/-- Poll `n` of the schedule, from the first on: the next registers of the closed form, and the raw bit where R119 says. -/
theorem evalChannel_heldChannel (width : 1 ≤ p.tickW) (fits : c.fits p) (idle : c.state = .idle) (n : Nat) :
    evalChannel p (sampleTick p (t0 + n)) true (heldChannel p t0 c n) = (heldChannel p t0 c (n + 1), firesAt c n) := by
  obtain ⟨debounceFits, repeatFits, -⟩ := fits
  cases n with
  | zero => exact evalChannel_heldChannel_zero t0 idle
  | succ n =>
    rcases Nat.lt_or_ge n c.firstFire with waiting | fired
    · exact evalChannel_heldChannel_of_waiting t0 width debounceFits waiting
    · exact evalChannel_heldChannel_of_fired t0 repeatFits fired

end

/-- `n` polls, one per tick from `t0`, with only button `i` pressed (R88). -/
def heldPolls (p : Params) (i t0 n : Nat) : List (Nat × Nat) :=
  (List.range n).map fun k => (sampleTick p (t0 + k), 2 ^ i)

theorem heldPolls_succ (p : Params) (i t0 n : Nat) :
    heldPolls p i t0 (n + 1) = heldPolls p i t0 n ++ [(sampleTick p (t0 + n), 2 ^ i)] := by
  simp [heldPolls, List.range_succ]

/-- HOLD requests these polls (R88). -/
theorem traceHold_eq_heldPolls (p : Params) (i t0 n : Nat) :
    traceHold p i t0 (t0 + n) = (heldPolls p i t0 (n + 1)).map fun q => pollSample q.1 q.2 := by
  have polls : t0 + n + 1 - t0 = n + 1 := by omega
  simp [traceHold, traceRun, heldPolls, polls, pollSample, sampleTick]

@[simp] theorem sampleTick_sampleTick (p : Params) (now : Nat) :
    sampleTick p (sampleTick p now) = sampleTick p now := Nat.mod_mod _ _

section
variable {p : Params} {nch i t0 : Nat} {c : Channel}

/-- The held channel follows the closed form. -/
theorem pollsChannel_heldPolls (configured : i < nch) (width : 1 ≤ p.tickW) (fits : c.fits p)
    (idle : c.state = .idle) (n : Nat) : pollsChannel p nch i (heldPolls p i t0 n) c = heldChannel p t0 c n := by
  induction n with
  | zero => exact pollsChannel_nil p nch i c
  | succ n ih =>
    rw [heldPolls_succ, pollsChannel_concat, if_pos configured, ih, pollChannel, Nat.testBit_two_pow_self,
      sampleTick_sampleTick, evalChannel_heldChannel t0 width fits idle]

/-- A channel whose button is not pressed stays Idle (R106). -/
theorem pollsChannel_heldPolls_of_ne {j : Nat} (other : j ≠ i) (idle : c.state = .idle) (n : Nat) :
    (pollsChannel p nch j (heldPolls p i t0 n) c).state = .idle := by
  induction n with
  | zero => rwa [show heldPolls p i t0 0 = [] from rfl, pollsChannel_nil]
  | succ n ih =>
    rw [heldPolls_succ, pollsChannel_concat]
    split
    · exact pollChannel_of_released (Nat.testBit_two_pow_of_ne other.symm)
    · exact ih

end

/-- Where no other channel is Active after phase 1, the result is the raw bit of channel `i` (R113). -/
theorem bsvc_snd_of_only_channel {now btn i : Nat} {s : State} (bounded : s.nch ≤ s.params.nMax)
    (others : ∀ j ≠ i, ((s.polledChannels now btn)[j]?).map Channel.state ≠ some .active) :
    (bsvc now btn s).2 = if (s.polledRaw now btn).testBit i then 2 ^ i else 0 := by
  have bit : (bsvc now btn s).2.testBit i = (s.polledRaw now btn).testBit i := by
    rw [Bool.eq_iff_iff, testBit_bsvc bounded]
    refine and_iff_left_of_imp fun raw => ?_
    exact ⟨(active_of_raw raw).1, (active_of_raw raw).2, fun j below => others j below.ne⟩
  rw [← bit]
  rcases bsvc_snd_cases (now := now) (btn := btn) bounded with zero | ⟨k, single, -, active, -⟩
  · simp [zero]
  · obtain rfl : k = i := of_not_not fun other => others k other active
    simp [single]

section
variable {s t : State} {i t0 n : Nat}

/-- The poll behind `n` polls of the schedule gives the raw bit of the held channel where R119 says. -/
theorem raw_of_heldPolls {c : Channel} (polled : Polled (heldPolls s.params i t0 n) s t) (inv : s.Inv)
    (configured : i < s.nch) (hc : s.ch[i]? = some c) (idle : c.state = .idle) :
    (t.polledRaw (sampleTick s.params (t0 + n)) (2 ^ i)).testBit i = firesAt c n := by
  have width : 1 ≤ s.params.tickW := inv.params_wf.1.1
  have fits : c.fits s.params := inv.ch_fit c (List.mem_of_getElem? hc)
  rw [testBit_bsvcRaw, polled.channel, polled.params, polled.nch, hc, Option.map_some, Option.map_some,
    pollsChannel_heldPolls configured width fits idle, sampleTick_sampleTick, Nat.testBit_two_pow_self,
    evalChannel_heldChannel t0 width fits idle]
  simp [configured]

/-- The polls of the schedule make no other channel Active. -/
theorem not_active_of_heldPolls (polled : Polled (heldPolls s.params i t0 n) s t) (allIdle : s.allIdle)
    {j : Nat} (other : j ≠ i) : (t.ch[j]?).map Channel.state ≠ some .active := by
  rw [polled.channel]
  cases hj : s.ch[j]? with
  | none => nofun
  | some c => simp [pollsChannel_heldPolls_of_ne other (allIdle c (List.mem_of_getElem? hj))]

end

/-- Settles O24: the last poll's result is the raw bit of the held channel, the only one that can be Active. -/
theorem heldButtonTriggersOnSchedule : Obligations.HeldButtonTriggersOnSchedule := by
  intro s i t0 n c inv allIdle configured hc
  obtain ⟨u, t, runs, before, after, ch, trig⟩ :=
    run_polls_concat s (heldPolls s.params i t0 n) (sampleTick s.params (t0 + n), 2 ^ i)
  rw [← heldPolls_succ] at runs after
  have polls : (heldPolls s.params i t0 (n + 1)).length = n + 1 := by simp [heldPolls]
  rw [← traceHold_eq_heldPolls, polls] at runs
  have others : ∀ j ≠ i, ((u.polledChannels (sampleTick s.params (t0 + n)) (2 ^ i))[j]?).map Channel.state ≠
      some .active := fun j other => ch ▸ not_active_of_heldPolls after allIdle other
  refine ⟨t, runs, ?_⟩
  rw [trig, bsvc_snd_of_only_channel (before.nch_le inv) others,
    raw_of_heldPolls before inv configured hc (allIdle c (List.mem_of_getElem? hc))]

end Sys2Proof.Machine
end

section
/-! The Command Encoder's counter and payload (R126, R127): the counter walks round the values 0 to `MAX_COUNTER`, and the payload
tells it modulo `2^16`. -/

namespace Sys2Proof.Machine

/-- The sentinel goes to 0 (R126). -/
@[simp] theorem nextCounter_neg_one (maxCounter : Nat) : nextCounter maxCounter (-1) = 0 := by
  rw [nextCounter_of_range le_rfl (by omega), if_neg (by omega)]
  rfl

/-- A counter of the range advances by one modulo `MAX_COUNTER + 1` (R126). -/
theorem nextCounter_natCast {maxCounter c : Nat} (legal : c ≤ maxCounter) :
    nextCounter maxCounter c = ((c + 1) % (maxCounter + 1) : Nat) := by
  rw [nextCounter_of_range (by omega) (by omega)]
  rcases legal.eq_or_lt with rfl | below
  · simp
  · rw [if_neg (by omega), Nat.mod_eq_of_lt (by omega), Nat.cast_succ]

/-- From the sentinel, `n + 1` advances give `n` modulo `MAX_COUNTER + 1`. -/
theorem iterate_nextCounter (maxCounter n : Nat) :
    Nat.iterate (nextCounter maxCounter) (n + 1) (-1) = ((n % (maxCounter + 1) : Nat) : Int) := by
  induction n with
  | zero => simp
  | succ n ih =>
    have legal : n % (maxCounter + 1) ≤ maxCounter := Nat.le_of_lt_succ (Nat.mod_lt n maxCounter.succ_pos)
    rw [Function.iterate_succ_apply', ih, nextCounter_natCast legal, Nat.mod_add_mod]

theorem exec_enc_of_lt {s : State} {j : Nat} (hj : j < s.params.nMax) :
    exec (.enc j) s = .next (encodeCommand j s) := if_pos hj

theorem counterOf_of_getElem? {s : State} {j : Nat} {old : Int} (hold : s.ctr[j]? = some old) :
    counterOf s j = old := by
  simp [counterOf, List.getD_eq_getElem?_getD, hold]

/-- Settles O28: the counter starts at 0 and advances by one modulo `MAX_COUNTER + 1`. -/
theorem counterCyclesThroughItsRange : Obligations.CounterCyclesThroughItsRange := by
  refine ⟨fun s j old hj hold => ⟨_, exec_enc_of_lt hj, ?_⟩,
    fun maxCounter => ⟨nextCounter_neg_one maxCounter, ?_, fun c below => ?_⟩, iterate_nextCounter⟩
  · rw [encodeCommand_ctr, counterOf_of_getElem? hold]
  · simp [nextCounter_natCast le_rfl]
  · rw [nextCounter_natCast below.le, Nat.mod_eq_of_lt (by omega), Nat.cast_succ]

/-- Two counters give one payload exactly where they agree modulo `2^16` (R127). -/
theorem payloadOf_eq_payloadOf_iff (base : Payload) (a b : Nat) :
    payloadOf base a = payloadOf base b ↔ a % 2 ^ 16 = b % 2 ^ 16 := by
  rw [payloadOf, payloadOf, BitVec.add_right_inj, ← BitVec.toNat_inj]
  simp

/-- Settles O29: an advance by one moves the payload, and the wrap moves it by `MAX_COUNTER`. -/
theorem successivePayloadsDiffer : Obligations.SuccessivePayloadsDiffer := by
  intro maxCounter base c legal
  refine ⟨?_, fun d legal' narrow same => ?_⟩
  · rw [nextCounter_natCast legal, payloadOf_eq_payloadOf_iff]
    rcases legal.eq_or_lt with rfl | below
    · simp [eq_comm]
    · rw [Nat.mod_eq_of_lt (Nat.succ_lt_succ below)]
      omega
  · rw [payloadOf_eq_payloadOf_iff] at same
    omega

end Sys2Proof.Machine
end

section
/-! The Command Encoder's stream (R128 to R131): ENC leaves the closed form of the new payload, which tells that payload bit by
bit. -/

namespace Sys2Proof.Machine

/-- The first message carries payload bit `i` at index `16 - i`. -/
theorem streamSymbol_bit (p : Params) (pay : Payload) {i : Nat} (hi : i < 16) :
    streamSymbol p pay (16 - i) = bitSymbol p pay i := by
  have offset : (16 - i) % 18 = 16 - i := by omega
  rw [streamSymbol, offset, if_neg (by omega), if_pos (by omega), Nat.sub_sub_self hi.le, bitSymbol]

theorem bitSymbol_eq_one_iff {p : Params} (distinct : p.zero ≠ p.one) (pay : Payload) (i : Nat) :
    bitSymbol p pay i = p.one ↔ pay.getLsbD i = true := by
  simp [bitSymbol, distinct]

theorem zeroSymbol_ne_oneSymbol {p : Params} (hp : p.wf) : p.zero ≠ p.one := fun same => by
  obtain ⟨-, ⟨duty, -⟩, -⟩ := hp
  exact absurd (same ▸ duty) (lt_irrefl _)

theorem streamSymbol_eq_of_streamOf_eq {p : Params} {a b : Payload} (same : streamOf p a = streamOf p b) {k : Nat}
    (hk : k < p.streamLen) : streamSymbol p a k = streamSymbol p b k := by
  have entry : (k, streamSymbol p a k) ∈ streamOf p b := same ▸ mem_streamOf.mpr ⟨hk, rfl⟩
  exact (mem_streamOf.mp entry).2

/-- Settles O30: equal streams have the same symbol for every payload bit, and ZERO is not ONE. -/
theorem streamDeterminesPayload : Obligations.StreamDeterminesPayload := by
  intro p a b hp
  refine ⟨fun same => BitVec.eq_of_getLsbD_eq fun i hi => ?_, congrArg _⟩
  have distinct := zeroSymbol_ne_oneSymbol hp
  obtain ⟨⟨-, -, -, -, -, -, repeats, -⟩, -⟩ := hp
  have inside : 16 - i < p.streamLen := by rw [streamLen_eq]; omega
  have symbol : bitSymbol p a i = bitSymbol p b i := by
    simpa only [streamSymbol_bit p _ hi] using streamSymbol_eq_of_streamOf_eq same inside
  rw [Bool.eq_iff_iff, ← bitSymbol_eq_one_iff distinct, symbol, bitSymbol_eq_one_iff distinct]

theorem payloadOf_eq_ofNat (base : Payload) (c : Int) :
    payloadOf base c = BitVec.ofNat 16 (base.toNat + c.toNat) := by
  rw [payloadOf, BitVec.ofNat_add, BitVec.ofNat_toNat, BitVec.setWidth_eq]

theorem baseOf_of_getElem? {p : Params} {j : Nat} {base : Payload} (hbase : p.base[j]? = some base) :
    baseOf p j = base := by
  simp [baseOf, List.getD_eq_getElem?_getD, hbase]

/-- Settles O26: what ENC writes over a canonical buffer is the closed form of the new payload. -/
theorem encodingWritesTheClosedForm : Obligations.EncodingWritesTheClosedForm := by
  intro s j inv
  refine ⟨fun base old hbase hold => ?_, fun outside => if_neg outside.not_gt⟩
  obtain ⟨bound, -⟩ := List.getElem?_eq_some_iff.mp hold
  have hj : j < s.params.nMax := inv.ctr_length ▸ bound
  obtain ⟨sent, legal⟩ := inv.ctr_range old (List.mem_of_getElem? hold)
  have next : nextCounter s.params.maxCounter (counterOf s j) =
      if old = s.params.maxCounter then 0 else old + 1 := by
    rw [counterOf_of_getElem? hold, nextCounter_of_range sent legal]
  have ctr := encodeCommand_ctr j s
  have stream := encodeCommand_stream inv hj
  rw [next] at ctr
  rw [counterOf_encodeCommand bound, next, baseOf_of_getElem? hbase, payloadOf_eq_ofNat] at stream
  have frame : encodeCommand j s =
      { s with ctr := (encodeCommand j s).ctr, stream := (encodeCommand j s).stream } := rfl
  rw [exec_enc_of_lt hj, frame, ctr, stream]

end Sys2Proof.Machine
end

section
/-! TSVC (R145 to R150): its arms on the operation level, and what its result says. -/

namespace Sys2Proof.Machine

/-- TSVC is the sequencer's arm with Busy on the result port (R150). -/
theorem exec_tsvc (trig : Nat) (s : State) : exec (.tsvc trig) s =
    .next ((tsvc trig s).setOut { (tsvc trig s).out with busy := some (tsvc trig s).busy }) := rfl

section
variable {s : State} {trig : Nat}

theorem State.busy_of_busy (h : s.txState = .busy) : s.busy = true := s.busy_iff.mpr h

theorem State.busy_of_idle (h : s.txState = .idle) : s.busy = false := by simp [State.busy, h]

/-- An arm of the sequencer that does nothing leaves TSVC only its result (R146, R147). -/
theorem exec_tsvc_of_same (same : tsvc trig s = s) :
    exec (.tsvc trig) s = .next { s with out := { s.out with busy := some s.busy } } := by
  rw [exec_tsvc, same]
  rfl

end

/-- Settles O31. -/
theorem busySequencerDropsTriggers : Obligations.BusySequencerDropsTriggers := by
  intro s trig busy
  rw [exec_tsvc_of_same (tsvc_of_busy busy trig), State.busy_of_busy busy]

/-- Settles O32. -/
theorem idleSequencerWithoutTrigger : Obligations.IdleSequencerWithoutTrigger := by
  intro s trig idle noBit
  have noTrigger : lsbIndex s.params.nMax trig = none := (lsbIndex_eq_none _ _).mpr noBit
  rw [exec_tsvc_of_same (tsvc_of_none noTrigger), State.busy_of_idle idle]

/-- Settles O33: the start writes the counters and the buffer of ENC's next state. -/
theorem idleSequencerStartsLowestTrigger : Obligations.IdleSequencerStartsLowestTrigger := by
  intro s trig j idle hj bit noLower
  have lowest : lsbIndex s.params.nMax trig = some j := (lsbIndex_eq_some _ _ _).mpr ⟨hj, bit, noLower⟩
  refine ⟨encodeCommand j s, exec_enc_of_lt hj, ?_⟩
  rw [exec_tsvc, tsvc_of_some idle lowest]
  rfl

/-- Settles O34. -/
theorem sequencerResultIsBusy : Obligations.SequencerResultIsBusy := fun s trig =>
  ⟨_, _, exec_tsvc trig s, rfl, rfl, (tsvc trig s).busy_iff⟩

end Sys2Proof.Machine
end

section
/-! DONE (R155, R156), as an operation and as the word 0x8. -/

namespace Sys2Proof.Machine

theorem exec_done (s : State) : exec .done s = .next { s with txState := .idle, outLevel := false } := rfl

/-- The word 0x8 has the code 000, which does nothing behind DONE (R86). -/
theorem exec_decodeOp_of_doneWord {x : Sample} (word : x.ev = 0x8#4) (t : State) :
    exec (decodeOp x) t = .next t := by
  simp only [decodeOp, word]
  rfl

/-- Settles O35: a step on the word 0x8 ends where its empty operation starts, behind the completion. -/
theorem doneReturnsToIdle : Obligations.DoneReturnsToIdle := by
  refine ⟨fun s => ⟨_, exec_done s, rfl, rfl, Bool.or_false _⟩, ?_⟩
  rintro s _ rfl hrst word idle
  rw [step_of_no_effect hrst idle (exec_decodeOp_of_doneWord word), State.opStart_of_done (by rw [word]; rfl)]

/-- Settles O36: an Idle state of the invariants has its output level false already. -/
theorem doneIsIdempotent : Obligations.DoneIsIdempotent := by
  refine fun s => ⟨fun inv idle => ?_, _, exec_done s, exec_done _⟩
  have level : s.outLevel = false := inv.out_level.trans (State.busy_of_idle idle)
  rw [exec_done, ← idle, ← level]

end Sys2Proof.Machine
end

section
/-! POLL (R160 to R162) as BSVC and TSVC. -/

namespace Sys2Proof.Machine

/-- POLL is the engine's poll and the sequencer's arm on its trigger, with all four results on the ports (R160). -/
theorem exec_poll (now btn : Nat) (s : State) : exec (.poll now btn) s =
    .next ((tsvc (bsvc now btn s).2 (bsvc now btn s).1).setOut
      { (tsvc (bsvc now btn s).2 (bsvc now btn s).1).out with
        trigOut := some (bsvc now btn s).2
        anyActive := some (bsvc now btn s).1.anyActive
        busy := some (tsvc (bsvc now btn s).2 (bsvc now btn s).1).busy
        active := some ((bsvc now btn s).1.anyActive || (tsvc (bsvc now btn s).2 (bsvc now btn s).1).busy) }) := rfl

/-- The sequencer does not read the results of BSVC and hands them on. -/
theorem tsvc_setOut_bsvcResults (trig : Nat) (s : State) (m : Option Nat) (a : Option Bool) :
    tsvc trig (s.setOut { s.out with trigOut := m, anyActive := a }) =
      (tsvc trig s).setOut { (tsvc trig s).out with trigOut := m, anyActive := a } := by
  cases hs : s.txState with
  | busy =>
    rw [tsvc_of_busy hs, tsvc_of_busy]
    exact hs
  | idle =>
    cases lowest : lsbIndex s.params.nMax trig with
    | none =>
      rw [tsvc_of_none lowest]
      exact tsvc_of_none lowest
    | some j =>
      rw [tsvc_of_some hs lowest]
      exact tsvc_of_some hs lowest

/-- The status output `any_active` reads the channels, which the sequencer never writes (R34, R145). -/
theorem tsvc_anyActive (trig : Nat) (s : State) : (tsvc trig s).anyActive = s.anyActive := by
  simp [State.anyActive]

/-- Settles O37: the sequencer acts on the state with BSVC's results as on the one without, and keeps `any_active`. -/
theorem pollIsConditioningThenSequencing : Obligations.PollIsConditioningThenSequencing := by
  refine ⟨fun x hrst word => ?_, fun s now btn => ?_⟩
  · obtain ⟨-, words⟩ := eventWordsDecodeAsTabulated x
    obtain ⟨-, -, -, -, poll, -⟩ := words hrst
    exact poll word
  · have handsOn := tsvc_setOut_bsvcResults (bsvc now btn s).2 (bsvc now btn s).1
      (some (bsvc now btn s).2) (some (bsvc now btn s).1.anyActive)
    rw [bsvc_out] at handsOn
    refine ⟨_, _, _, _, _, exec_bsvc now btn s, rfl, rfl, exec_tsvc _ _, rfl, ?_, ?_, rfl⟩
    · rw [exec_poll, handsOn]
      rfl
    · rw [handsOn]
      exact (tsvc_anyActive _ _).symm

/-- Settles O38: the Busy arm does nothing, and BSVC writes no counter, no entry and no strobe. -/
theorem pollWhileBusyOnlyConditions : Obligations.PollWhileBusyOnlyConditions := by
  intro s now btn busy
  have conditioned : (bsvc now btn s).1.txState = .busy := busy
  have poll := exec_poll now btn s
  rw [tsvc_of_busy conditioned, State.busy_of_busy conditioned, Bool.or_true] at poll
  exact ⟨_, _, exec_bsvc now btn s, poll, rfl, rfl, rfl, rfl⟩

end Sys2Proof.Machine
end

section
/-! Single flight (R154): an operation of the field `op` leaves the transmission alone, or starts one from Idle. -/

namespace Sys2Proof.Machine

/-- What a transmission is made of: the sequencer's state and output level, the counters, the buffer and the strobe
(R29 to R33, R40). -/
structure Transmission where
  txState : TxState
  outLevel : Bool
  ctr : List Int
  stream : Memory
  started : Option Nat

def State.transmission (s : State) : Transmission := ⟨s.txState, s.outLevel, s.ctr, s.stream, s.out.started⟩

theorem tsvc_transmission (trig : Nat) (s : State) : (tsvc trig s).transmission = s.transmission ∨
    ∃ j, s.txState = .idle ∧ (tsvc trig s).transmission = (startTransmission j s).transmission := by
  rcases tsvc_cases trig s with ⟨same, -⟩ | ⟨j, idle, -, start⟩
  · exact .inl (congrArg _ same)
  · exact .inr ⟨j, idle, congrArg _ start⟩

/-- The operations a sample's field `op` can select: only TSVC and POLL start, and only from Idle (R146, R149). -/
theorem exec_decodeOp_transmission {x : Sample} {s t : State} (ht : exec (decodeOp x) s = .next t) :
    t.transmission = s.transmission ∨
      ∃ j, s.txState = .idle ∧ t.transmission = (startTransmission j s).transmission := by
  obtain ⟨notReset, notDone, notEnc⟩ := decodeOp_ne x
  generalize decodeOp x = i at ht notReset notDone notEnc
  cases i with
  | nop | bsvc | reservedOp5 | reservedOp6 | reservedOp7 => cases ht; exact .inl rfl
  | init cfg =>
    obtain ⟨cs, -, -, rfl⟩ := exec_init_eq_next ht
    exact .inl rfl
  | tsvc trig => cases ht; exact tsvc_transmission trig s
  | poll now btn => cases ht; exact tsvc_transmission _ (bsvc now btn s).1
  | done => exact absurd rfl notDone
  | reset => exact absurd rfl notReset
  | enc j => exact absurd rfl (notEnc j)

section
variable (x : Sample) (s : State)

@[simp] theorem State.opStart_params : (s.opStart x).params = s.params := by unfold State.opStart; split <;> rfl
@[simp] theorem State.opStart_stream : (s.opStart x).stream = s.stream := by unfold State.opStart; split <;> rfl

/-- An operation of the field `op` finds the sequencer Idle, or behind the completion. -/
theorem State.opStart_idle (idle : (s.opStart x).txState = .idle) : s.txState = .idle ∨ EventWord.d x.ev = true := by
  cases hd : EventWord.d x.ev with
  | true => exact .inr rfl
  | false => exact .inl (by simpa [State.opStart, hd] using idle)

end

/-- The advance of the started command's counter is that of the state before the step (R149). -/
theorem startTransmission_opStart_ctr (j : Nat) (x : Sample) (s : State) :
    (startTransmission j (s.opStart x)).ctr =
      s.ctr.set j (nextCounter s.params.maxCounter (s.ctr.getD j (-1))) := by
  simp [counterOf]

/-- What a step without `rst` does to the transmission: the completion alone if there is one, or one start from Idle behind
it. -/
theorem step_transmission {s t : State} (h : step s = .next t) (hrst : (nextSample s).rst = false) :
    t.transmission = (s.opStart (nextSample s)).transmission ∨
      ∃ j, (s.opStart (nextSample s)).txState = .idle ∧
        t.transmission = (startTransmission j (s.opStart (nextSample s))).transmission := by
  obtain ⟨y, u, rfl, ⟨hr, -⟩ | ⟨-, hu⟩⟩ := step_cases h
  · simp [hrst] at hr
  · exact exec_decodeOp_transmission (t := u) hu

/-- RESET strobes nothing (R190). -/
theorem not_started_of_rst {s t : State} (h : step s = .next t) (hrst : (nextSample s).rst = true) :
    t.out.started = none := by
  obtain ⟨y, u, rfl, ⟨-, rfl⟩ | ⟨hr, -⟩⟩ := step_cases h
  · rfl
  · simp [hrst] at hr

/-- Settles O43: RESET starts nothing; any other step leaves the transmission to its one operation of `op`, which starts only
from Idle. -/
theorem noStartBeforeCompletion : Obligations.NoStartBeforeCompletion := by
  intro s t h
  cases hrst : (nextSample s).rst with
  | true =>
    have noStrobe := not_started_of_rst h hrst
    exact ⟨fun j started => by simp [noStrobe] at started, nofun, nofun⟩
  | false =>
    rcases step_transmission h hrst with same | ⟨k, idle, start⟩
    · have noStrobe : t.out.started = none := by
        have strobe := congrArg Transmission.started same
        rwa [State.transmission, State.transmission, State.opStart_out] at strobe
      have ctr : t.ctr = s.ctr := (congrArg Transmission.ctr same).trans (State.opStart_ctr _ _)
      have stream : t.stream = s.stream := (congrArg Transmission.stream same).trans (State.opStart_stream _ _)
      refine ⟨fun j started => by simp [noStrobe] at started, fun _ _ => ⟨ctr, stream⟩, fun busy _ noDone => ?_⟩
      rw [State.opStart_of_no_done hrst noDone] at same
      exact ⟨(congrArg Transmission.txState same).trans busy, congrArg Transmission.outLevel same, ctr, stream,
        noStrobe⟩
    · have strobe : t.out.started = some k := congrArg Transmission.started start
      have free := State.opStart_idle _ _ idle
      refine ⟨fun j started => ?_, fun noStrobe => by simp [strobe] at noStrobe, fun busy _ noDone => ?_⟩
      · obtain rfl : k = j := Option.some_inj.mp (strobe.symm.trans started)
        exact ⟨free, rfl, congrArg Transmission.txState start,
          (congrArg Transmission.ctr start).trans (startTransmission_opStart_ctr _ _ _)⟩
      · rcases free with idle | done
        · exact absurd (busy.symm.trans idle) nofun
        · exact absurd (noDone.symm.trans done) nofun

end Sys2Proof.Machine
end

section
/-! The completion ahead of the operation in one word (R168), with TSVC behind it (R148, R149). -/

namespace Sys2Proof.Machine

/-- Without `rst` and read, a step ends where the operation of the field `op` does, behind the completion (R168). -/
theorem step_of_exec_decodeOp {s t : State} (hrst : (nextSample s).rst = false) (idle : (nextSample s).symIdx = none)
    (h : exec (decodeOp (nextSample s)) (s.opStart (nextSample s)) = .next t) :
    step s = .next (t.setOut { t.out with sym := none }) := by
  refine step_of_runOps_next idle ?_
  rw [runOps_decode, hrst, if_neg Bool.false_ne_true, h]

/-- The word 0xB has the code 011, behind the strobe bit (R70, R71). -/
theorem decodeOp_of_doneTsvcWord {x : Sample} (word : x.ev = 0xB#4) : decodeOp x = .tsvc x.trigIn := by
  simp only [decodeOp, word]
  rfl

/-- Behind the completion TSVC takes its start arm, whatever the sequencer's state before the step (R149, R155). -/
theorem tsvc_opStart_of_done {s : State} {x : Sample} {j : Nat} (hd : EventWord.d x.ev = true)
    (lowest : lsbIndex s.params.nMax x.trigIn = some j) :
    tsvc x.trigIn (s.opStart x) = startTransmission j (s.opStart x) := by
  have idle : (s.opStart x).txState = .idle := by rw [State.opStart_of_done hd]
  exact tsvc_of_some idle (by rwa [State.opStart_params])

/-- Settles O6: TSVC starts in the state that the completion left Idle, which has the counters of before. -/
theorem completionComesBeforeTheOperation : Obligations.CompletionComesBeforeTheOperation := by
  rintro s _ j rfl hrst idle word hj bit noLower
  have lowest := (lsbIndex_eq_some _ _ _).mpr ⟨hj, bit, noLower⟩
  have done : EventWord.d (nextSample s).ev = true := by rw [word]; rfl
  have runs := exec_tsvc (nextSample s).trigIn (s.opStart (nextSample s))
  rw [tsvc_opStart_of_done done lowest, ← decodeOp_of_doneTsvcWord word] at runs
  exact ⟨_, step_of_exec_decodeOp hrst idle runs, rfl, rfl, rfl, startTransmission_opStart_ctr _ _ _⟩

end Sys2Proof.Machine
end

section
/-! Every operation completes in its domain (R165): only INIT and ENC have operands outside it (R76, R102, R125). -/

namespace Sys2Proof.Machine

/-- The port's bound on a millisecond value is the bound on its tick count (R102 d). -/
theorem msToTicks_lt_iff_msFits {p : Params} (tick : 1 ≤ p.tickMs) (width : 1 ≤ p.tickW) (ms : Nat) :
    msToTicks p ms < 2 ^ p.tickW ↔ p.msFits ms := by
  rcases Nat.eq_zero_or_pos ms with rfl | pos
  · simp [msToTicks, Params.msFits]
  · have one : 1 < 2 ^ p.tickW := Nat.one_lt_two_pow (by omega)
    have twoTicks : 0 < 2 * p.tickMs := by omega
    rw [msToTicks, if_neg pos.ne', max_lt_iff, Nat.div_lt_iff_lt_mul twoTicks]
    simp [one, pos.ne']

/-- A well-formed list converts: it holds port values only, and all of them fit (R80, R101). -/
theorem channelsOfCfg_of_wf {p : Params} {cfg : List CfgEntry} (hp : p.wf) (entries : ∀ e ∈ cfg, e.wf p) :
    channelsOfCfg p cfg = some (cfg.map (configuredChannel p)) := by
  obtain ⟨⟨width, tick, -⟩, -⟩ := hp
  refine channelsOfCfg_eq_map fun e he => ?_
  obtain ⟨debPort, repPort, debFits, repFits⟩ := entries e he
  exact ⟨debPort, repPort, (msToTicks_lt_iff_msFits tick width _).mpr debFits,
    (msToTicks_lt_iff_msFits tick width _).mpr repFits⟩

theorem exec_enc_of_le {s : State} {j : Nat} (outside : s.params.nMax ≤ j) :
    exec (.enc j) s = .refused .noSuchCommand := if_neg outside.not_gt

/-- INIT loads its list or refuses it under one of two names (R102). -/
theorem exec_init_cases (cfg : List CfgEntry) (s : State) : (∃ t, exec (.init cfg) s = .next t) ∨
    exec (.init cfg) s = .refused .initTooManyChannels ∨ exec (.init cfg) s = .refused .initIntervalTooWide := by
  rcases lt_or_ge s.params.nMax cfg.length with tooLong | short
  · exact .inr (.inl (exec_init_of_too_long tooLong))
  · cases conversion : channelsOfCfg s.params cfg with
    | some cs => exact .inl ⟨_, exec_init_of_converts short conversion⟩
    | none => exact .inr (.inr (exec_init_of_no_conversion short conversion))

/-- Every operation but INIT and ENC completes, whatever its operands. -/
theorem exec_completes {i : Instr} (notInit : ∀ cfg, i ≠ .init cfg) (notEnc : ∀ j, i ≠ .enc j) (s : State) :
    ∃ t, exec i s = .next t := by
  cases i with
  | init cfg => exact absurd rfl (notInit cfg)
  | enc j => exact absurd rfl (notEnc j)
  | _ => exact ⟨_, rfl⟩

theorem exec_completes_of_wf {i : Instr} {s : State} (hp : s.params.wf) (hi : i.wf s.params = true) :
    ∃ t, exec i s = .next t := by
  cases i with
  | init cfg =>
    simp only [Instr.wf, Bool.and_eq_true, List.all_eq_true, decide_eq_true_eq] at hi
    obtain ⟨short, entries⟩ := hi
    exact ⟨_, exec_init_of_converts short (channelsOfCfg_of_wf hp entries)⟩
  | enc j => exact ⟨_, exec_enc_of_lt (of_decide_eq_true hi)⟩
  | _ => exact exec_completes (by nofun) (by nofun) s

/-- Settles O41: INIT and ENC complete on well-formed operands and refuse by name; the others always complete. -/
theorem everyOperationInItsDomainCompletes : Obligations.EveryOperationInItsDomainCompletes := by
  refine ⟨fun i s => exec_completes_of_wf, fun i s => ?_⟩
  cases i with
  | init cfg => exact (exec_init_cases cfg s).imp_right fun refused => .inl ⟨cfg, rfl, refused⟩
  | enc j =>
    rcases lt_or_ge j s.params.nMax with hj | outside
    · exact .inl ⟨_, exec_enc_of_lt hj⟩
    · exact .inr (.inr ⟨j, rfl, outside, exec_enc_of_le outside⟩)
  | _ => exact .inl (exec_completes (by nofun) (by nofun) s)

end Sys2Proof.Machine
end

section
/-! RESET as an operation (R190, R193), and the poll of a quiescent state with no button pressed (R205). -/

namespace Sys2Proof.Machine

theorem exec_reset (s : State) : exec .reset s = .next s.resetCore := rfl

/-- Without a configured channel the status output `any_active` is false (R34). -/
theorem State.anyActive_of_no_channel {s : State} (noChannel : s.nch = 0) : s.anyActive = false := by
  simp [State.anyActive, anyActiveOf, noChannel]

/-- Settles O10; after RESET no channel is configured and the sequencer is Idle. -/
theorem resetSetsEveryRegister : Obligations.ResetSetsEveryRegister := by
  refine ⟨fun _ => decode_of_rst, fun s => ⟨s.resetCore, exec_reset s, ?_⟩⟩
  have noneActive : s.resetCore.anyActive = false := State.anyActive_of_no_channel rfl
  have notBusy : s.resetCore.busy = false := State.busy_of_idle rfl
  have registers : ∀ i < s.params.nMax, s.resetCore.ch[i]? = some (⟨0, 0, .idle, 0⟩ : Channel) ∧
      s.resetCore.ctr[i]? = some (-1) := fun i hi =>
    ⟨List.getElem?_replicate_of_lt hi, List.getElem?_replicate_of_lt hi⟩
  exact ⟨rfl, List.length_replicate, List.length_replicate, registers, rfl, rfl, noneActive, notBusy,
    by rw [State.active, noneActive, notBusy]; rfl, rfl, rfl, rfl, rfl⟩

/-- A quiescent state has no configured channel pressed or held, and an Idle sequencer (R205). -/
theorem State.idle_of_quiescent {s : State} (quiet : s.quiescent = true) :
    (∀ c ∈ s.ch.take s.nch, c.state = .idle) ∧ s.txState = .idle := by
  simp only [State.quiescent, State.active, Bool.and_eq_true, Bool.not_eq_true', Bool.or_eq_false_iff] at quiet
  obtain ⟨⟨noneActive, notBusy⟩, -⟩ := quiet
  constructor
  · simpa [State.anyActive, anyActiveOf] using noneActive
  · cases h : s.txState with
    | idle => rfl
    | busy => exact absurd (State.busy_of_busy h) (by simp [notBusy])

/-- A released button leaves its channel Idle at the tick of the poll, and emits nothing (R106, R108, R112). -/
theorem evalChannel_of_released (p : Params) (now : Nat) (c : Channel) :
    evalChannel p now false c = ({ c with state := .idle, last := now }, false) := by
  cases h : c.state with
  | idle => rw [evalChannel_of_idle _ _ _ h]; rfl
  | triggered => rw [evalChannel_of_triggered _ _ _ h]; rfl
  | active => rw [evalChannel_of_active _ _ _ h]; rfl

/-- With no button pressed phase 1 leaves every configured channel Idle at the tick of the poll (R104, R106, R108, R112). -/
theorem bsvcChannels_of_no_button (p : Params) (nch now : Nat) (chs : List Channel) :
    bsvcChannels p nch now 0 chs =
      (chs.take nch).map (fun c => { c with state := .idle, last := now }) ++ chs.drop nch := by
  refine List.ext_getElem? fun i => ?_
  rw [bsvcChannels_getElem?]
  simp only [Nat.zero_testBit, evalChannel_of_released]
  rcases lt_or_ge i chs.length with inside | outside
  · rcases lt_or_ge i nch with configured | above
    · simp [configured, inside, List.getElem?_append_left]
    · have place : nch + (i - min nch chs.length) = i := by omega
      simp [List.getElem?_append, above.not_gt, place]
  · have beyond : min nch chs.length + (chs.length - nch) ≤ i := by omega
    simp [outside, beyond]

section
variable (now : Nat) (s : State)

/-- With no button pressed no trigger survives: each takes a held button (R109, R111). -/
theorem bsvc_snd_of_no_button (bounded : s.nch ≤ s.params.nMax) : (bsvc now 0 s).2 = 0 := by
  refine Nat.eq_of_testBit_eq fun i => ?_
  rw [Nat.zero_testBit, ← Bool.not_eq_true, testBit_bsvc bounded, testBit_bsvcRaw, Nat.zero_testBit]
  cases s.ch[i]? <;> simp [evalChannel_of_released]

/-- With no button pressed no channel is active after phase 1 (R115). -/
theorem bsvc_anyActive_of_no_button : (bsvc now 0 s).1.anyActive = false := by
  rw [← Bool.not_eq_true, State.anyActive_iff]
  rintro ⟨i, c, configured, hc, pressed⟩
  rw [bsvc_nch] at configured
  simp only [bsvc_ch, bsvcChannels_getElem?, Nat.zero_testBit, evalChannel_of_released, if_pos configured,
    Option.map_eq_some_iff] at hc
  obtain ⟨_, -, rfl⟩ := hc
  exact pressed rfl

end

/-- Settles O40: with no button pressed the engine has no trigger for the Idle sequencer, and the channels, Idle already,
take the tick. -/
theorem quiescentPollChangesOnlyTicks : Obligations.QuiescentPollChangesOnlyTicks := by
  intro s now inv quiet
  obtain ⟨channelsIdle, idle⟩ := State.idle_of_quiescent quiet
  have noTrigger : (bsvc now 0 s).2 = 0 := bsvc_snd_of_no_button now s inv.nch_le
  have unchanged : tsvc 0 (bsvc now 0 s).1 = (bsvc now 0 s).1 := tsvc_of_none (lsbIndex_zero _)
  have notBusy : (bsvc now 0 s).1.busy = false := State.busy_of_idle idle
  have ticks : (s.ch.take s.nch).map (fun c => { c with state := .idle, last := sampleTick s.params now }) =
      (s.ch.take s.nch).map (fun c => { c with last := now % 2 ^ s.params.tickW }) :=
    List.map_congr_left fun c hc => by rw [← channelsIdle c hc]; rfl
  rw [exec_poll, noTrigger, unchanged, notBusy, bsvc_anyActive_of_no_button, bsvc_fst, bsvcChannels_of_no_button, ticks]
  rfl

end Sys2Proof.Machine
end
